-- ==== Sys2Proof/Word.lean ====
section
/-! DEFINITION. The word types of the register port and of the cipher (`00_scope.md` rules R6, R7). -/

namespace Sys2Proof

/-- A byte, 8 bits, bit 0 the least significant (rule R6). -/
abbrev Byte := BitVec 8

/-- The data of one register access, 32 bits (rules R30, R36). -/
abbrev Word := BitVec 32

/-- A byte offset in the register window, 0x00 to 0xFF (rules R16, R25). -/
abbrev Offset := BitVec 8

/-- The transaction word TW, 41 bits (rule R46). -/
abbrev TWord := BitVec 41

/-- A block: a sequence of 16 bytes, element 0 first, never one 128-bit number (rule R7). -/
abbrev Block := Vector Byte 16

end Sys2Proof
end

