-- ==== Sys2Proof/Syntax.lean ====
section
/-! DEFINITION. The eleven host transactions, one constructor for each row of `spec/opcode_table.json`
(`30_encoding.md` rule R49). The engine's own step has no encoding and no constructor (rule R45). -/

namespace Sys2Proof

/-- The direction of a transaction: RW = 0 is a read, RW = 1 a write (rules R30, R46). -/
inductive Dir where
  | read
  | write
  deriving DecidableEq, Repr

/-- A host transaction with its operands (rules R47, R48). Bits the engine ignores are no operands. -/
inductive Instr where
  /-- START: write CTRL, CMD = 0x01 (rule R61). -/
  | start
  /-- CLEAR: write CTRL, CMD = 0x02 (rule R62). -/
  | clear
  /-- CTRLRSVD: write CTRL with any other CMD (rule R63). -/
  | ctrlrsvd (cmd : Byte)
  /-- SETLEN: write LEN (rule R64). -/
  | setlen (lenval : Word)
  /-- PUSH: write DIN (rule R66). -/
  | push (byte : Byte)
  /-- STAT: read STATUS (rule R60). -/
  | stat
  /-- GETLEN: read LEN (rule R65). -/
  | getlen
  /-- POP: read DOUT (rule R67). -/
  | pop
  /-- GETICNT: read ICNT (rule R68). -/
  | geticnt
  /-- GETOCNT: read OCNT (rule R69). -/
  | getocnt
  /-- ILLEGAL: every other direction and offset (rule R70). -/
  | illegal (dir : Dir) (addr : Offset)
  deriving DecidableEq, Repr

end Sys2Proof
end

