-- ==== Sys2Proof/WellFormed.lean ====
section
/-! DEFINITION. Which terms of `Instr` stand for a transaction word: the operands of CTRLRSVD and ILLEGAL must not be
those of another row (`30_encoding.md` rules R49, R51). -/

namespace Sys2Proof

/-- The (direction, offset) pairs that name one of the rows 1 to 10: the access column of `10_state.md` rule R16. -/
def mappedAccess : Dir → Offset → Bool
  | .write, a => a == 0x00#8 || a == 0x08#8 || a == 0x0C#8
  | .read, a => a == 0x04#8 || a == 0x08#8 || a == 0x10#8 || a == 0x14#8 || a == 0x18#8

/-- A reserved command code: any CMD but 0x01 and 0x02 (`10_state.md` rule R17). -/
def reservedCmd (c : Byte) : Bool := !(c == 0x01#8) && !(c == 0x02#8)

/-- An instruction that some transaction word names. -/
def Instr.wf : Instr → Bool
  | .start => true
  | .clear => true
  | .ctrlrsvd cmd => reservedCmd cmd
  | .setlen _ => true
  | .push _ => true
  | .stat => true
  | .getlen => true
  | .pop => true
  | .geticnt => true
  | .getocnt => true
  | .illegal dir addr => !mappedAccess dir addr

end Sys2Proof
end

