-- ==== Sys2Proof/Decode.lean ====
section
/-! DEFINITION. Decoding a transaction word and encoding an instruction (`30_encoding.md` rules R46 to R49, R53). The
decoder is total: every one of the 2^41 words is one of the eleven transactions (rule R49), so it rejects nothing; a
word outside rows 1 to 10 is the transaction ILLEGAL, with its direction and offset. -/

namespace Sys2Proof

/-- RW, bit 40 of the transaction word (rule R46). -/
def twDir (tw : TWord) : Dir := if tw.getLsbD 40 then .write else .read

/-- ADDR, bits 39:32 (rule R46). -/
def twAddr (tw : TWord) : Offset := tw.extractLsb' 32 8

/-- WDATA, bits 31:0; also LENVAL of a LEN write (rules R46, R48). -/
def twData (tw : TWord) : Word := tw.extractLsb' 0 32

/-- Bits 7:0: CMD of a CTRL write, BYTE of a DIN write (rules R47, R48). -/
def twLow (tw : TWord) : Byte := tw.extractLsb' 0 8

/-- One row of the opcode map: `(TW and mask) = pattern` names the row (rule R49). -/
structure OpcodeRow where
  pattern : TWord
  mask : TWord
  form : TWord → Instr

/-- The opcode map of rule R49, in its order; the first row that matches names the transaction. -/
def opcodeRows : List OpcodeRow :=
  [ ⟨0x10000000001#41, 0x1FF000000FF#41, fun _ => .start⟩,
    ⟨0x10000000002#41, 0x1FF000000FF#41, fun _ => .clear⟩,
    ⟨0x10000000000#41, 0x1FF00000000#41, fun tw => .ctrlrsvd (twLow tw)⟩,
    ⟨0x10800000000#41, 0x1FF00000000#41, fun tw => .setlen (twData tw)⟩,
    ⟨0x10C00000000#41, 0x1FF00000000#41, fun tw => .push (twLow tw)⟩,
    ⟨0x00400000000#41, 0x1FF00000000#41, fun _ => .stat⟩,
    ⟨0x00800000000#41, 0x1FF00000000#41, fun _ => .getlen⟩,
    ⟨0x01000000000#41, 0x1FF00000000#41, fun _ => .pop⟩,
    ⟨0x01400000000#41, 0x1FF00000000#41, fun _ => .geticnt⟩,
    ⟨0x01800000000#41, 0x1FF00000000#41, fun _ => .getocnt⟩,
    ⟨0x00000000000#41, 0x00000000000#41, fun tw => .illegal (twDir tw) (twAddr tw)⟩ ]

/-- The first row that matches; when no row is left the word is ILLEGAL, as the last row says of every word. -/
def decodeIn : List OpcodeRow → TWord → Instr
  | [], tw => .illegal (twDir tw) (twAddr tw)
  | r :: rs, tw => if tw &&& r.mask = r.pattern then r.form tw else decodeIn rs tw

/-- The decoder (rules R49, R50): a function of the word alone. -/
def decode (tw : TWord) : Instr := decodeIn opcodeRows tw

/-- RW in its place, bit 40 (rule R46). -/
def rwBit : Dir → TWord
  | .write => 1#41 <<< 40
  | .read => 0#41

/-- The word of a direction, an offset and the data written (rule R46); also the raw forms `WR a, v` and
`RD a` of rule R53. -/
def packTW (dir : Dir) (addr : Offset) (wdata : Word) : TWord :=
  rwBit dir ||| (addr.setWidth 41 <<< 32) ||| wdata.setWidth 41

/-- The word of an instruction, zero in the bits the engine ignores (rule R53). -/
def encode : Instr → TWord
  | .start => packTW .write 0x00#8 0x00000001#32
  | .clear => packTW .write 0x00#8 0x00000002#32
  | .ctrlrsvd cmd => packTW .write 0x00#8 (cmd.setWidth 32)
  | .setlen lenval => packTW .write 0x08#8 lenval
  | .push byte => packTW .write 0x0C#8 (byte.setWidth 32)
  | .stat => packTW .read 0x04#8 0#32
  | .getlen => packTW .read 0x08#8 0#32
  | .pop => packTW .read 0x10#8 0#32
  | .geticnt => packTW .read 0x14#8 0#32
  | .getocnt => packTW .read 0x18#8 0#32
  | .illegal dir addr => packTW dir addr 0#32

/-- The word the opcode table's bit numbering gives: `w` with every bit at or above `nbits` zero. TW is one word of 41
bits, bit 0 its least significant (rule R46), so no byte order enters. -/
def tableWord (nbits w : Nat) : TWord := BitVec.ofNat 41 (w % 2 ^ nbits)

/-- What the decoder reads from the word numbered as `spec/opcode_table.json` numbers it; never `none`, the decoder
being total (rule R49). -/
def decodeTableWord (nbits w : Nat) : Option Instr := some (decode (tableWord nbits w))

end Sys2Proof
end

