-- ==== Sys2Proof/Machine/Blocks.lean ====
section
/-! DEFINITION. Blocks and byte sequences (`00_scope.md` rule R7): building, reading and writing a block, bytewise xor,
and cutting a byte sequence into blocks. -/

namespace Sys2Proof.Machine

/-- The block whose element i is `f i`. -/
def blockOf (f : Fin 16 → Byte) : Block :=
  #v[f 0, f 1, f 2, f 3, f 4, f 5, f 6, f 7, f 8, f 9, f 10, f 11, f 12, f 13, f 14, f 15]

/-- Element i of a block; no rule reads an index above 15. -/
def byteAt (b : Block) (i : Nat) : Byte := b[i]?.getD 0#8

/-- `b[i] <- v` (rule R8); an index above 15 changes nothing, and no rule writes one. -/
def setByte (b : Block) (i : Nat) (v : Byte) : Block := b.setIfInBounds i v

/-- Exclusive or of two blocks, byte by byte (rule R6). -/
def xorBlock (a b : Block) : Block := blockOf fun i => a[i] ^^^ b[i]

/-- The block made of the first sixteen bytes of a list. -/
def blockOfList (l : List Byte) : Block := blockOf fun i => l.getD i 0#8

/-- The first n blocks of a byte sequence: `B[16k..16k+16]` for k below n (rule R7). -/
def takeBlocks : Nat → List Byte → List Block
  | 0, _ => []
  | n + 1, l => blockOfList (l.take 16) :: takeBlocks n (l.drop 16)

/-- The whole blocks of a byte sequence, in order. -/
def blocksOf (l : List Byte) : List Block := takeBlocks (l.length / 16) l

/-- The bytes of a sequence of blocks, in order. -/
def bytesOf (bs : List Block) : List Byte := bs.flatMap fun b => b.toList

end Sys2Proof.Machine
end

