-- ==== Sys2Proof/Machine/Aes.lean ====
section
/-! DEFINITION. The AES-128 inverse cipher and key expansion, and the forward cipher that the round-trip laws need
(`42_aes128_inverse_cipher.md` rules R90 to R113). -/

namespace Sys2Proof.Machine

/-- Multiplication by x in GF(2^8) (rule R91). -/
def xtime (a : Byte) : Byte := if a.getLsbD 7 then (a <<< 1) ^^^ 0x1B#8 else a <<< 1

/-- The loop of rule R91 over the bits of b from bit i on, n of them: r collects the sum, a is doubled each time. -/
def gmulFrom (b : Byte) : Nat → Nat → Byte → Byte → Byte
  | 0, _, _, r => r
  | n + 1, i, a, r => gmulFrom b n (i + 1) (xtime a) (if b.getLsbD i then r ^^^ a else r)

/-- Multiplication in GF(2^8) (rules R90, R91). -/
def gmul (a b : Byte) : Byte := gmulFrom b 8 0 a 0#8

/-- The S-box table of rule R92: row the high hex digit, column the low one. -/
def sBoxRows : List (List Byte) :=
  [
    [0x63#8, 0x7c#8, 0x77#8, 0x7b#8, 0xf2#8, 0x6b#8, 0x6f#8, 0xc5#8, 0x30#8, 0x01#8, 0x67#8, 0x2b#8, 0xfe#8, 0xd7#8, 0xab#8, 0x76#8],
    [0xca#8, 0x82#8, 0xc9#8, 0x7d#8, 0xfa#8, 0x59#8, 0x47#8, 0xf0#8, 0xad#8, 0xd4#8, 0xa2#8, 0xaf#8, 0x9c#8, 0xa4#8, 0x72#8, 0xc0#8],
    [0xb7#8, 0xfd#8, 0x93#8, 0x26#8, 0x36#8, 0x3f#8, 0xf7#8, 0xcc#8, 0x34#8, 0xa5#8, 0xe5#8, 0xf1#8, 0x71#8, 0xd8#8, 0x31#8, 0x15#8],
    [0x04#8, 0xc7#8, 0x23#8, 0xc3#8, 0x18#8, 0x96#8, 0x05#8, 0x9a#8, 0x07#8, 0x12#8, 0x80#8, 0xe2#8, 0xeb#8, 0x27#8, 0xb2#8, 0x75#8],
    [0x09#8, 0x83#8, 0x2c#8, 0x1a#8, 0x1b#8, 0x6e#8, 0x5a#8, 0xa0#8, 0x52#8, 0x3b#8, 0xd6#8, 0xb3#8, 0x29#8, 0xe3#8, 0x2f#8, 0x84#8],
    [0x53#8, 0xd1#8, 0x00#8, 0xed#8, 0x20#8, 0xfc#8, 0xb1#8, 0x5b#8, 0x6a#8, 0xcb#8, 0xbe#8, 0x39#8, 0x4a#8, 0x4c#8, 0x58#8, 0xcf#8],
    [0xd0#8, 0xef#8, 0xaa#8, 0xfb#8, 0x43#8, 0x4d#8, 0x33#8, 0x85#8, 0x45#8, 0xf9#8, 0x02#8, 0x7f#8, 0x50#8, 0x3c#8, 0x9f#8, 0xa8#8],
    [0x51#8, 0xa3#8, 0x40#8, 0x8f#8, 0x92#8, 0x9d#8, 0x38#8, 0xf5#8, 0xbc#8, 0xb6#8, 0xda#8, 0x21#8, 0x10#8, 0xff#8, 0xf3#8, 0xd2#8],
    [0xcd#8, 0x0c#8, 0x13#8, 0xec#8, 0x5f#8, 0x97#8, 0x44#8, 0x17#8, 0xc4#8, 0xa7#8, 0x7e#8, 0x3d#8, 0x64#8, 0x5d#8, 0x19#8, 0x73#8],
    [0x60#8, 0x81#8, 0x4f#8, 0xdc#8, 0x22#8, 0x2a#8, 0x90#8, 0x88#8, 0x46#8, 0xee#8, 0xb8#8, 0x14#8, 0xde#8, 0x5e#8, 0x0b#8, 0xdb#8],
    [0xe0#8, 0x32#8, 0x3a#8, 0x0a#8, 0x49#8, 0x06#8, 0x24#8, 0x5c#8, 0xc2#8, 0xd3#8, 0xac#8, 0x62#8, 0x91#8, 0x95#8, 0xe4#8, 0x79#8],
    [0xe7#8, 0xc8#8, 0x37#8, 0x6d#8, 0x8d#8, 0xd5#8, 0x4e#8, 0xa9#8, 0x6c#8, 0x56#8, 0xf4#8, 0xea#8, 0x65#8, 0x7a#8, 0xae#8, 0x08#8],
    [0xba#8, 0x78#8, 0x25#8, 0x2e#8, 0x1c#8, 0xa6#8, 0xb4#8, 0xc6#8, 0xe8#8, 0xdd#8, 0x74#8, 0x1f#8, 0x4b#8, 0xbd#8, 0x8b#8, 0x8a#8],
    [0x70#8, 0x3e#8, 0xb5#8, 0x66#8, 0x48#8, 0x03#8, 0xf6#8, 0x0e#8, 0x61#8, 0x35#8, 0x57#8, 0xb9#8, 0x86#8, 0xc1#8, 0x1d#8, 0x9e#8],
    [0xe1#8, 0xf8#8, 0x98#8, 0x11#8, 0x69#8, 0xd9#8, 0x8e#8, 0x94#8, 0x9b#8, 0x1e#8, 0x87#8, 0xe9#8, 0xce#8, 0x55#8, 0x28#8, 0xdf#8],
    [0x8c#8, 0xa1#8, 0x89#8, 0x0d#8, 0xbf#8, 0xe6#8, 0x42#8, 0x68#8, 0x41#8, 0x99#8, 0x2d#8, 0x0f#8, 0xb0#8, 0x54#8, 0xbb#8, 0x16#8] ]

/-- The inverse S-box table of rule R93, same layout. -/
def invSBoxRows : List (List Byte) :=
  [
    [0x52#8, 0x09#8, 0x6a#8, 0xd5#8, 0x30#8, 0x36#8, 0xa5#8, 0x38#8, 0xbf#8, 0x40#8, 0xa3#8, 0x9e#8, 0x81#8, 0xf3#8, 0xd7#8, 0xfb#8],
    [0x7c#8, 0xe3#8, 0x39#8, 0x82#8, 0x9b#8, 0x2f#8, 0xff#8, 0x87#8, 0x34#8, 0x8e#8, 0x43#8, 0x44#8, 0xc4#8, 0xde#8, 0xe9#8, 0xcb#8],
    [0x54#8, 0x7b#8, 0x94#8, 0x32#8, 0xa6#8, 0xc2#8, 0x23#8, 0x3d#8, 0xee#8, 0x4c#8, 0x95#8, 0x0b#8, 0x42#8, 0xfa#8, 0xc3#8, 0x4e#8],
    [0x08#8, 0x2e#8, 0xa1#8, 0x66#8, 0x28#8, 0xd9#8, 0x24#8, 0xb2#8, 0x76#8, 0x5b#8, 0xa2#8, 0x49#8, 0x6d#8, 0x8b#8, 0xd1#8, 0x25#8],
    [0x72#8, 0xf8#8, 0xf6#8, 0x64#8, 0x86#8, 0x68#8, 0x98#8, 0x16#8, 0xd4#8, 0xa4#8, 0x5c#8, 0xcc#8, 0x5d#8, 0x65#8, 0xb6#8, 0x92#8],
    [0x6c#8, 0x70#8, 0x48#8, 0x50#8, 0xfd#8, 0xed#8, 0xb9#8, 0xda#8, 0x5e#8, 0x15#8, 0x46#8, 0x57#8, 0xa7#8, 0x8d#8, 0x9d#8, 0x84#8],
    [0x90#8, 0xd8#8, 0xab#8, 0x00#8, 0x8c#8, 0xbc#8, 0xd3#8, 0x0a#8, 0xf7#8, 0xe4#8, 0x58#8, 0x05#8, 0xb8#8, 0xb3#8, 0x45#8, 0x06#8],
    [0xd0#8, 0x2c#8, 0x1e#8, 0x8f#8, 0xca#8, 0x3f#8, 0x0f#8, 0x02#8, 0xc1#8, 0xaf#8, 0xbd#8, 0x03#8, 0x01#8, 0x13#8, 0x8a#8, 0x6b#8],
    [0x3a#8, 0x91#8, 0x11#8, 0x41#8, 0x4f#8, 0x67#8, 0xdc#8, 0xea#8, 0x97#8, 0xf2#8, 0xcf#8, 0xce#8, 0xf0#8, 0xb4#8, 0xe6#8, 0x73#8],
    [0x96#8, 0xac#8, 0x74#8, 0x22#8, 0xe7#8, 0xad#8, 0x35#8, 0x85#8, 0xe2#8, 0xf9#8, 0x37#8, 0xe8#8, 0x1c#8, 0x75#8, 0xdf#8, 0x6e#8],
    [0x47#8, 0xf1#8, 0x1a#8, 0x71#8, 0x1d#8, 0x29#8, 0xc5#8, 0x89#8, 0x6f#8, 0xb7#8, 0x62#8, 0x0e#8, 0xaa#8, 0x18#8, 0xbe#8, 0x1b#8],
    [0xfc#8, 0x56#8, 0x3e#8, 0x4b#8, 0xc6#8, 0xd2#8, 0x79#8, 0x20#8, 0x9a#8, 0xdb#8, 0xc0#8, 0xfe#8, 0x78#8, 0xcd#8, 0x5a#8, 0xf4#8],
    [0x1f#8, 0xdd#8, 0xa8#8, 0x33#8, 0x88#8, 0x07#8, 0xc7#8, 0x31#8, 0xb1#8, 0x12#8, 0x10#8, 0x59#8, 0x27#8, 0x80#8, 0xec#8, 0x5f#8],
    [0x60#8, 0x51#8, 0x7f#8, 0xa9#8, 0x19#8, 0xb5#8, 0x4a#8, 0x0d#8, 0x2d#8, 0xe5#8, 0x7a#8, 0x9f#8, 0x93#8, 0xc9#8, 0x9c#8, 0xef#8],
    [0xa0#8, 0xe0#8, 0x3b#8, 0x4d#8, 0xae#8, 0x2a#8, 0xf5#8, 0xb0#8, 0xc8#8, 0xeb#8, 0xbb#8, 0x3c#8, 0x83#8, 0x53#8, 0x99#8, 0x61#8],
    [0x17#8, 0x2b#8, 0x04#8, 0x7e#8, 0xba#8, 0x77#8, 0xd6#8, 0x26#8, 0xe1#8, 0x69#8, 0x14#8, 0x63#8, 0x55#8, 0x21#8, 0x0c#8, 0x7d#8] ]

/-- A look-up in a table of sixteen rows of sixteen bytes. -/
def tableByte (rows : List (List Byte)) (a : Byte) : Byte :=
  (rows.getD (a.toNat / 16) []).getD (a.toNat % 16) 0#8

/-- SBox (rule R92). -/
def sBox (a : Byte) : Byte := tableByte sBoxRows a

/-- InvSBox (rule R93). -/
def invSBox (a : Byte) : Byte := tableByte invSBoxRows a

/-- b is the multiplicative inverse of a, 0x00 going to 0x00 (rule R92). -/
def isFieldInverse (a b : Byte) : Prop := (a = 0x00#8 ∧ b = 0x00#8) ∨ gmul a b = 0x01#8

/-- The affine map of rule R92, with c = 0x63. -/
def affine (b : Byte) : Byte :=
  b ^^^ b.rotateLeft 1 ^^^ b.rotateLeft 2 ^^^ b.rotateLeft 3 ^^^ b.rotateLeft 4 ^^^ 0x63#8

/-- s[r][c] of the cipher's 4 by 4 array held as the block it is loaded from: byte r + 4c (rule R100). -/
def cell (s : Block) (r c : Fin 4) : Byte := byteAt s (r.val + 4 * c.val)

/-- The array with s[r][c] = f r c, as the block it is unloaded to (rule R100). -/
def stateOf (f : Fin 4 → Fin 4 → Byte) : Block :=
  #v[f 0 0, f 1 0, f 2 0, f 3 0, f 0 1, f 1 1, f 2 1, f 3 1, f 0 2, f 1 2, f 2 2, f 3 2, f 0 3, f 1 3, f 2 3, f 3 3]

/-- AddRoundKey (rule R101). -/
def addRoundKey (s rk : Block) : Block := stateOf fun r c => cell s r c ^^^ byteAt rk (r.val + 4 * c.val)

/-- InvShiftRows (rule R102): s'[r][c] = s[r][(c - r) mod 4]. -/
def invShiftRows (s : Block) : Block := stateOf fun r c => cell s r (c - r)

/-- InvSubBytes (rule R103). -/
def invSubBytes (s : Block) : Block := stateOf fun r c => invSBox (cell s r c)

/-- One byte of a mixed column: the four cells of the column, each times its constant. -/
def mixCell (k0 k1 k2 k3 : Byte) (s : Block) (c : Fin 4) : Byte :=
  gmul k0 (cell s 0 c) ^^^ gmul k1 (cell s 1 c) ^^^ gmul k2 (cell s 2 c) ^^^ gmul k3 (cell s 3 c)

/-- InvMixColumns (rule R104). -/
def invMixColumns (s : Block) : Block :=
  stateOf fun r c =>
    match r with
    | 0 => mixCell 0x0E#8 0x0B#8 0x0D#8 0x09#8 s c
    | 1 => mixCell 0x09#8 0x0E#8 0x0B#8 0x0D#8 s c
    | 2 => mixCell 0x0D#8 0x09#8 0x0E#8 0x0B#8 s c
    | 3 => mixCell 0x0B#8 0x0D#8 0x09#8 0x0E#8 s c

/-- A word of the key schedule, 4 bytes (rule R105). -/
abbrev KeyWord := Vector Byte 4

/-- Xor of two words, byte by byte (rule R105). -/
def xorKeyWord (a b : KeyWord) : KeyWord := #v[a[0] ^^^ b[0], a[1] ^^^ b[1], a[2] ^^^ b[2], a[3] ^^^ b[3]]

/-- RotWord (rule R105). -/
def rotWord (a : KeyWord) : KeyWord := #v[a[1], a[2], a[3], a[0]]

/-- SubWord (rule R105). -/
def subWord (a : KeyWord) : KeyWord := #v[sBox a[0], sBox a[1], sBox a[2], sBox a[3]]

/-- rc_(n+1) of rule R105: rc_1 = 0x01, rc_(j+1) = xtime(rc_j). -/
def rcByte : Nat → Byte
  | 0 => 0x01#8
  | n + 1 => xtime (rcByte n)

/-- Rcon[j], j from 1 (rule R105). -/
def rcon (j : Nat) : KeyWord := #v[rcByte (j - 1), 0#8, 0#8, 0#8]

/-- Word i of the key itself, i below 4 (rule R105). -/
def keyPart (k : Block) (i : Nat) : KeyWord :=
  #v[byteAt k (4 * i), byteAt k (4 * i + 1), byteAt k (4 * i + 2), byteAt k (4 * i + 3)]

/-- w[i] from the words before it, the newest first: `ws` is w[i-1], w[i-2], w[i-3], w[i-4], ... (rule R105). -/
def nextKeyWord (k : Block) (i : Nat) (ws : List KeyWord) : KeyWord :=
  if i < 4 then keyPart k i
  else if i % 4 = 0 then
    xorKeyWord (xorKeyWord (ws.getD 3 (keyPart k 0)) (subWord (rotWord (ws.getD 0 (keyPart k 0))))) (rcon (i / 4))
  else xorKeyWord (ws.getD 3 (keyPart k 0)) (ws.getD 0 (keyPart k 0))

/-- The first n words of the key schedule, the newest first (rule R105). -/
def keyWords (k : Block) : Nat → List KeyWord
  | 0 => []
  | n + 1 => nextKeyWord k n (keyWords k n) :: keyWords k n

/-- w[i] of KeyExpansion(K) (rule R105). -/
def keyWord (k : Block) (i : Nat) : KeyWord := nextKeyWord k i (keyWords k i)

/-- RK[j] = w[4j] || w[4j+1] || w[4j+2] || w[4j+3] (rule R105). -/
def roundKey (k : Block) (j : Nat) : Block :=
  stateOf fun r c => (keyWord k (4 * j + c.val))[r.val]'r.isLt

/-- One round of the inverse cipher, with its round key (rule R110). -/
def invRound (s rk : Block) : Block := invMixColumns (addRoundKey (invSubBytes (invShiftRows s)) rk)

/-- Rounds n down to 1 of the inverse cipher (rule R110). -/
def invRounds (k : Block) : Nat → Block → Block
  | 0, s => s
  | n + 1, s => invRounds k n (invRound s (roundKey k (n + 1)))

/-- InvCipher(K, C) (rule R110). -/
def invCipher (k c : Block) : Block :=
  addRoundKey (invSubBytes (invShiftRows (invRounds k 9 (addRoundKey c (roundKey k 10))))) (roundKey k 0)

/-- SubBytes (rule R111). -/
def subBytes (s : Block) : Block := stateOf fun r c => sBox (cell s r c)

/-- ShiftRows (rule R111): s'[r][c] = s[r][(c + r) mod 4]. -/
def shiftRows (s : Block) : Block := stateOf fun r c => cell s r (c + r)

/-- MixColumns (rule R111). -/
def mixColumns (s : Block) : Block :=
  stateOf fun r c =>
    match r with
    | 0 => mixCell 0x02#8 0x03#8 0x01#8 0x01#8 s c
    | 1 => mixCell 0x01#8 0x02#8 0x03#8 0x01#8 s c
    | 2 => mixCell 0x01#8 0x01#8 0x02#8 0x03#8 s c
    | 3 => mixCell 0x03#8 0x01#8 0x01#8 0x02#8 s c

/-- One round of the forward cipher, with its round key (rule R112). -/
def fwdRound (s rk : Block) : Block := addRoundKey (mixColumns (shiftRows (subBytes s))) rk

/-- Rounds 1 to n of the forward cipher (rule R112). -/
def fwdRounds (k : Block) : Nat → Block → Block
  | 0, s => s
  | n + 1, s => fwdRound (fwdRounds k n s) (roundKey k (n + 1))

/-- Cipher(K, P), for the round-trip laws only (rule R112). -/
def cipher (k p : Block) : Block :=
  addRoundKey (shiftRows (subBytes (fwdRounds k 9 (addRoundKey p (roundKey k 0))))) (roundKey k 10)

end Sys2Proof.Machine
end

