-- ==== Sys2Proof/Machine/Cbc.lean ====
section
/-! DEFINITION. Cipher block chaining (`41_cbc_decrypt.md` rules R81, R82, R87). -/

namespace Sys2Proof.Machine

/-- CBCDecryptBlock: the plaintext block and the next chaining value (rule R81). -/
def cbcDecryptBlock (k v c : Block) : Block × Block := (xorBlock (invCipher k c) v, c)

/-- The plaintext blocks of a sequence of ciphertext blocks, from chaining value v on (rules R82, R84). -/
def cbcDecryptBlocks (k : Block) : Block → List Block → List Block
  | _, [] => []
  | v, c :: cs => (cbcDecryptBlock k v c).1 :: cbcDecryptBlocks k (cbcDecryptBlock k v c).2 cs

/-- CBCDecrypt(K, V0, C), for a C of whole blocks (rule R82); nothing is stripped (rule R83). -/
def cbcDecrypt (k v0 : Block) (c : List Byte) : List Byte := bytesOf (cbcDecryptBlocks k v0 (blocksOf c))

/-- The ciphertext blocks of a sequence of plaintext blocks, from chaining value v on (rule R87). -/
def cbcEncryptBlocks (k : Block) : Block → List Block → List Block
  | _, [] => []
  | v, p :: ps => cipher k (xorBlock p v) :: cbcEncryptBlocks k (cipher k (xorBlock p v)) ps

/-- CBCEncrypt(K, V0, P), for a P of whole blocks; no function of the engine (rules R4, R87). -/
def cbcEncrypt (k v0 : Block) (p : List Byte) : List Byte := bytesOf (cbcEncryptBlocks k v0 (blocksOf p))

end Sys2Proof.Machine
end

