-- ==== Sys2Proof/Machine/State.lean ====
section
/-! DEFINITION. The engine's state (`10_state.md` rules R12 to R15), the value the port last answered, and the list of
events still to come; the reset state (rule R28). -/

namespace Sys2Proof.Machine

/-- The four values of the 2-bit register STATE (rule R13). -/
inductive Phase where
  | idle
  | run
  | done
  | err
  deriving DecidableEq, Repr

/-- The atomic events that act on the engine (rules R10, R160): a host transaction on the register port, a turn of the
agent ENGINE, a reset. -/
inductive Event where
  /-- The host presents a transaction word on the register port. -/
  | host (tw : TWord)
  /-- ENGINE has its turn: it performs the block step if that is enabled, else nothing happens. -/
  | engine
  /-- The environment applies the reset event. -/
  | reset
  deriving DecidableEq, Repr

/-- The engine's whole state (rules R12 to R15), and two fields of the model: `rdata` and `agenda`. -/
structure State where
  /-- STATE (rule R13). -/
  phase : Phase
  /-- ERRCODE, 4 bits: 0 none, 1 InvalidLength (rule R15). -/
  errcode : BitVec 4
  /-- PERR, the sticky protocol-violation bit (rule R15). -/
  perr : Bool
  /-- LEN (rule R14). -/
  len : Word
  /-- ICNT (rule R14). -/
  icnt : Word
  /-- OCNT (rule R14). -/
  ocnt : Word
  /-- IFILL, values 0 to 16 (rule R14). -/
  ifill : Fin 17
  /-- OREM, values 0 to 16 (rule R14). -/
  orem : Fin 17
  /-- PREV (rule R12). -/
  prev : Block
  /-- IBUF (rule R12). -/
  ibuf : Block
  /-- OBUF (rule R12). -/
  obuf : Block
  /-- The answer of the last transaction on the port: the value of a read, `none` after a write (rule R30). The model's
  own field: it holds the port's output `rdata`, which no rule counts among the state. -/
  rdata : Option Word
  /-- The events still to come, first one first: what the host, ENGINE and the environment do from here on. The
  model's own field: it says which agent moves next (rules R10, R39). -/
  agenda : List Event
  deriving DecidableEq, Repr

/-- No step of this machine stops in a fault, so there is no reason to stop: "no block value, key value, byte value or
interleaving makes the engine fault, hang or produce an undefined result" (`60_exceptions.md` rule R140). The engine's
own exception InvalidLength and its protocol violations are next states (rules R141, R142). -/
inductive Fault where
  deriving DecidableEq, Repr

/-- Why a step would be refused. -/
inductive Refusal where
  /-- Raised by `exec` alone, for an instruction that has no meaning yet; no arm raises it. Safe: the run stops. -/
  | notModelled (mnemonic : String)
  deriving DecidableEq, Repr

/-- Sixteen bytes 0x00 (rule R28). -/
def zeroBlock : Block := #v[0, 0, 0, 0, 0, 0, 0, 0, 0, 0, 0, 0, 0, 0, 0, 0]

/-- The state after the reset event (rules R28, R160), with no answer on the port and no event to come. -/
def State.reset : State where
  phase := .idle
  errcode := 0#4
  perr := false
  len := 0#32
  icnt := 0#32
  ocnt := 0#32
  ifill := 0
  orem := 0
  prev := zeroBlock
  ibuf := zeroBlock
  obuf := zeroBlock
  rdata := none
  agenda := []

end Sys2Proof.Machine
end

