-- ==== Sys2Proof/Machine/Operands.lean ====
section
/-! DEFINITION. The operand forms of the transactions (`40_host_commands.md` rule R72): the implicit places in IBUF and
OBUF that PUSH and POP address, and the zero extension of a byte to the 32 bits of a read. -/

namespace Sys2Proof.Machine

/-- `zext_32` of a byte (rules R6, R72). -/
def zextByte (b : Byte) : Word := b.setWidth 32

/-- IBUF with the next ciphertext byte written at index IFILL (rule R66). -/
def State.ibufWith (s : State) (b : Byte) : Block := setByte s.ibuf s.ifill.val b

/-- OBUF[16 - OREM], the next plaintext byte (rule R67). -/
def State.nextOut (s : State) : Byte := byteAt s.obuf (16 - s.orem.val)

/-- The code of STATE in bits [1:0] of STATUS (rule R13). -/
def phaseCode : Phase → BitVec 2
  | .idle => 0#2
  | .run => 1#2
  | .done => 2#2
  | .err => 3#2

end Sys2Proof.Machine
end

