-- ==== Sys2Proof/Machine/Flags.lean ====
section
/-! DEFINITION. The derived flags and the STATUS word (`10_state.md` rules R15, R18), and the test of a message length
(`60_exceptions.md` rule R141). -/

namespace Sys2Proof.Machine

/-- IRDY: a DIN write would be accepted now (rule R15). -/
def State.irdy (s : State) : Bool :=
  decide (s.phase = .run) && decide (s.ifill.val < 16) && decide (s.icnt.toNat < s.len.toNat)

/-- ORDY: a DOUT read would deliver a byte now (rule R15). -/
def State.ordy (s : State) : Bool := decide (0 < s.orem.val)

/-- BUSY: a block step is enabled and has not yet happened (rules R15, R80). -/
def State.busy (s : State) : Bool :=
  decide (s.phase = .run) && decide (s.ifill.val = 16) && decide (s.orem.val = 0)

/-- A flag as a word, bit 0. -/
def flagBit (b : Bool) : Word := (BitVec.ofBool b).setWidth 32

/-- The value a read of STATUS returns, assembled from the state at that instant as rule R60 writes it (rules R18,
R60). -/
def State.statusWord (s : State) : Word :=
  (phaseCode s.phase).setWidth 32 ||| (flagBit s.irdy <<< 2) ||| (flagBit s.ordy <<< 3) ||| (flagBit s.busy <<< 4) |||
    (flagBit s.perr <<< 5) ||| (s.errcode.setWidth 32 <<< 8)

/-- A length that START refuses: zero, or not a multiple of 16 (rules R61, R141; `90_conflicts.md` C1). -/
def badLength (n : Word) : Bool := decide (n.toNat = 0) || decide (n.toNat % 16 ≠ 0)

end Sys2Proof.Machine
end

