-- ==== Sys2Proof/Config.lean ====
section
/-! DEFINITION. What is fixed for one machine: KEY and IV as fields (`00_scope.md` rule R5), and the parameters the
spec leaves OPEN (`92_eei_decisions.md` section 2) as constants without a body. This hardware's values of KEY and IV
are `Sys2Proof.Machine.engineConfig` (Machine/Params.lean). -/

namespace Sys2Proof

/-- The constants wired into the engine (rules R5, R11). Every definition of the cipher and of the block step takes
them as arguments, because the spec calls the document's literals unaudited. -/
structure Config where
  /-- KEY, 16 bytes. -/
  key : Block
  /-- IV, 16 bytes. -/
  iv : Block
  deriving DecidableEq, Repr

/-- The error kinds of the whole program, in the order in which they are looked for (rules R132, R133). -/
inductive ErrorKind where
  | usageError
  | parseError
  | invalidLength
  | decodeError
  deriving DecidableEq, Repr

/-- The two output streams of the command-line program (rule R132). -/
inductive Stream where
  | stdout
  | stderr
  deriving DecidableEq, Repr, Inhabited

/-- BASE, where the platform puts the 256-byte register window in the host's address space: OPEN (D3, rule R37). -/
opaque Config.base : Nat

/-- ERR_STREAM, the stream an error message goes to: OPEN (D20). -/
opaque Config.errStream : ErrorKind → Stream

/-- A wording of the usage and error messages, one distinct wording for each error kind (rule R133 "a distinguishing
message"; D20). -/
structure MessageTexts where
  text : ErrorKind → List Char
  /-- No two kinds share a wording. -/
  distinct : ∀ j k : ErrorKind, text j = text k → j = k

/-- Four wordings that differ: there are such wordings. This is what `Config.messages` needs to be declared, and says
nothing of which wordings it holds. -/
def someMessages : MessageTexts where
  text
    | .usageError => ['u']
    | .parseError => ['p']
    | .invalidLength => ['l']
    | .decodeError => ['d']
  distinct := by intro j k; cases j <;> cases k <;> simp

/-- MSG_TEXT, the messages of the program: OPEN, but for the distinctness that `MessageTexts` carries (D20). -/
opaque Config.messages [Inhabited MessageTexts] : MessageTexts

/-- LINE_END, what follows the credential on the output: OPEN (D20). -/
opaque Config.lineEnd : List Char

/-- OUT_ENCODING, how output characters become bytes: OPEN (D20). -/
opaque Config.outEncoding : List Char → List Byte

end Sys2Proof
end

