-- ==== Sys2Proof/Machine/Params.lean ====
section
/-! DEFINITION. This hardware's KEY and IV (`00_scope.md` rule R5), byte 0 first. -/

namespace Sys2Proof.Machine

/-- The KEY and IV of this engine (rules R5, R11). -/
def engineConfig : Config where
  key := #v[0x06#8, 0x02#8, 0x00#8, 0x00#8, 0x00#8, 0xa4#8, 0x00#8, 0x00#8,
            0x52#8, 0x53#8, 0x41#8, 0x31#8, 0x00#8, 0x04#8, 0x00#8, 0x00#8]
  iv := #v[0x01#8, 0x00#8, 0x01#8, 0x00#8, 0x67#8, 0x24#8, 0x4f#8, 0x43#8,
           0x6e#8, 0x67#8, 0x62#8, 0xf2#8, 0x5e#8, 0xa8#8, 0xd7#8, 0x04#8]

/-- LEN_BITS = 32: the least length that LEN cannot hold (rules R5, R64; `93_implementation_defined.md` U6). -/
def lengthBound : Nat := 2 ^ 32

/-- The register window of 256 bytes at BASE: the offset that a host address reaches, if any (rule R37). -/
def windowOffset (hostAddr : Nat) : Option Offset :=
  if Config.base ≤ hostAddr ∧ hostAddr < Config.base + 256 then some (BitVec.ofNat 8 (hostAddr - Config.base)) else none

end Sys2Proof.Machine
end

