-- ==== Sys2Proof/Machine/Ops.lean ====
section
/-! DEFINITION. The named operations on the state that the transactions, the block step and the reset share. Taking the
engine's exception is `State.raiseInvalidLength` (`60_exceptions.md` rule R141), recording a protocol violation is
`State.flagPerr` (rule R142), and the one return from the exception is `State.clearEngine` (rule R147). -/

namespace Sys2Proof.Machine

/-- A read returns v (rules R8, R31). -/
def State.answer (s : State) (v : Word) : State := { s with rdata := some v }

/-- A write returns nothing (rule R30). -/
def State.noAnswer (s : State) : State := { s with rdata := none }

/-- `flag PERR` (rule R142). -/
def State.flagPerr (s : State) : State := { s with perr := true }

/-- `raise InvalidLength`, the whole of it (rule R141): nothing is saved and no control is transferred (rule R146). -/
def State.raiseInvalidLength (s : State) : State := { s with phase := .err, errcode := 1#4 }

/-- Every state element at its reset value (rules R28, R62, R160); the events still to come are not the engine's. It is
the only way out of ERR (rule R147). -/
def State.clearEngine (s : State) : State := { State.reset with agenda := s.agenda }

/-- The path of START that opens a message (rule R61): PREV takes the IV, the counters go to zero. -/
def State.beginMessage (c : Config) (s : State) : State :=
  { s with phase := .run, prev := c.iv, icnt := 0#32, ocnt := 0#32, ifill := 0, orem := 0 }

/-- The path of SETLEN that stores (rule R64). -/
def State.storeLen (s : State) (n : Word) : State := { s with len := n }

/-- The path of PUSH that accepts (rule R66). -/
def State.acceptByte (s : State) (b : Byte) : State :=
  { s with ibuf := s.ibufWith b, ifill := s.ifill + 1, icnt := s.icnt + 1#32 }

/-- STATE after a byte is delivered: DONE when it is byte LEN-1 of the message (rule R67). -/
def State.phaseAfterPop (s : State) : Phase := if s.ocnt + 1#32 = s.len then .done else s.phase

/-- The path of POP that delivers (rule R67); OBUF is not erased. -/
def State.deliverByte (s : State) : State :=
  { s with orem := s.orem - 1, ocnt := s.ocnt + 1#32, phase := s.phaseAfterPop }

/-- BLKSTEP (rules R80, R81): IBUF keeps its bytes, and STATE, LEN, ICNT, OCNT, ERRCODE, PERR are unchanged. -/
def State.blkStep (c : Config) (s : State) : State :=
  { s with
    obuf := (cbcDecryptBlock c.key s.prev s.ibuf).1
    prev := (cbcDecryptBlock c.key s.prev s.ibuf).2
    ifill := 0
    orem := 16 }

/-- A turn of the agent ENGINE: the block step if it is enabled, else the state is held (rules R80, R155). -/
def State.engineTurn (c : Config) (s : State) : State := if s.busy then s.blkStep c else s

/-- The reset event (rule R160). -/
def State.resetEvent (s : State) : State := s.clearEngine

end Sys2Proof.Machine
end

