-- ==== Sys2Proof/Machine/Commands.lean ====
section
/-! DEFINITION. The writes of CTRL and LEN: START, CLEAR, CTRLRSVD, SETLEN (`40_host_commands.md` rules R61 to R64). -/

namespace Sys2Proof.Machine

/-- START (rule R61): STATE is tested before LEN. -/
def execStart (s : State) : Host.Outcome State Fault Refusal :=
  .next (State.noAnswer
    (if s.phase ≠ .idle then s.flagPerr
     else if badLength s.len then s.raiseInvalidLength
     else s.beginMessage engineConfig))

/-- CLEAR (rule R62), accepted in every state. -/
def execClear (s : State) : Host.Outcome State Fault Refusal := .next s.clearEngine.noAnswer

/-- CTRLRSVD (rule R63): whatever the reserved code is. -/
def execCtrlrsvd (_cmd : Byte) (s : State) : Host.Outcome State Fault Refusal := .next s.flagPerr.noAnswer

/-- SETLEN (rule R64): the value is not judged here. -/
def execSetlen (lenval : Word) (s : State) : Host.Outcome State Fault Refusal :=
  .next (State.noAnswer (if s.phase = .idle then s.storeLen lenval else s.flagPerr))

end Sys2Proof.Machine
end

