-- ==== Sys2Proof/Machine/Data.lean ====
section
/-! DEFINITION. The two byte streams: PUSH and POP (`40_host_commands.md` rules R66, R67). -/

namespace Sys2Proof.Machine

/-- PUSH (rule R66): accepted exactly when IRDY = 1, else the byte is dropped. -/
def execPush (byte : Byte) (s : State) : Host.Outcome State Fault Refusal :=
  .next (State.noAnswer (if s.irdy then s.acceptByte byte else s.flagPerr))

/-- POP (rule R67): delivers exactly when ORDY = 1, else the read returns 0. -/
def execPop (s : State) : Host.Outcome State Fault Refusal :=
  .next (if s.ordy then s.deliverByte.answer (zextByte s.nextOut) else s.flagPerr.answer 0#32)

end Sys2Proof.Machine
end

