-- ==== Sys2Proof/Machine/Illegal.lean ====
section
/-! DEFINITION. ILLEGAL: every transaction that no other rule names (`40_host_commands.md` rule R70). -/

namespace Sys2Proof.Machine

/-- ILLEGAL (rule R70): PERR is set, a read returns 0, and the offset plays no other part. -/
def execIllegal (dir : Dir) (_addr : Offset) (s : State) : Host.Outcome State Fault Refusal :=
  .next (match dir with
    | .read => s.flagPerr.answer 0#32
    | .write => s.flagPerr.noAnswer)

end Sys2Proof.Machine
end

