-- ==== Sys2Proof/Machine/Reads.lean ====
section
/-! DEFINITION. The reads without side effect: STAT, GETLEN, GETICNT, GETOCNT (`40_host_commands.md` rules R60, R65, R68,
R69). -/

namespace Sys2Proof.Machine

/-- STAT (rule R60). -/
def execStat (s : State) : Host.Outcome State Fault Refusal := .next (s.answer s.statusWord)

/-- GETLEN (rule R65). -/
def execGetlen (s : State) : Host.Outcome State Fault Refusal := .next (s.answer s.len)

/-- GETICNT (rule R68). -/
def execGeticnt (s : State) : Host.Outcome State Fault Refusal := .next (s.answer s.icnt)

/-- GETOCNT (rule R69). -/
def execGetocnt (s : State) : Host.Outcome State Fault Refusal := .next (s.answer s.ocnt)

end Sys2Proof.Machine
end

