-- ==== Sys2Proof/Machine/Dispatch.lean ====
section
/-! DEFINITION. One arm for each of the eleven transactions. -/

namespace Sys2Proof.Machine

def exec (i : Instr) (s : State) : Host.Outcome State Fault Refusal :=
  match i with
  | .start => Sys2Proof.Machine.execStart s
  | .clear => Sys2Proof.Machine.execClear s
  | .ctrlrsvd cmd => Sys2Proof.Machine.execCtrlrsvd cmd s
  | .setlen lenval => Sys2Proof.Machine.execSetlen lenval s
  | .push byte => Sys2Proof.Machine.execPush byte s
  | .stat => Sys2Proof.Machine.execStat s
  | .getlen => Sys2Proof.Machine.execGetlen s
  | .pop => Sys2Proof.Machine.execPop s
  | .geticnt => Sys2Proof.Machine.execGeticnt s
  | .getocnt => Sys2Proof.Machine.execGetocnt s
  | .illegal dir addr => Sys2Proof.Machine.execIllegal dir addr s

end Sys2Proof.Machine
end

