-- ==== Sys2Proof/Machine/Step.lean ====
section
/-! DEFINITION. One step of the machine: the first event of the agenda happens, whole (`10_state.md` rule R10,
`20_memory.md` rule R39). When no event is to come, ENGINE is the only agent left and has its turn. -/

namespace Sys2Proof.Machine

/-- One atomic event (rules R10, R39, R160). -/
def step (s : State) : Host.Outcome State Fault Refusal :=
  match s.agenda with
  | [] => .next (s.engineTurn engineConfig)
  | .engine :: rest => .next (State.engineTurn engineConfig { s with agenda := rest })
  | .reset :: rest => .next (State.resetEvent { s with agenda := rest })
  | .host tw :: rest => exec (decode tw) { s with agenda := rest }

/-- The host presents the word next: it is put before the events still to come. -/
def State.withFetchWord (s : State) (nbits w : Nat) : State :=
  { s with agenda := .host (tableWord nbits w) :: s.agenda }

end Sys2Proof.Machine
end

