-- ==== Sys2Proof/Machine/Utf16.lean ====
section
/-! DEFINITION. UTF-16LE decoding, the NUL trim, and the encoding helpers of the round-trip law
(`43_utf16le_software_layer.md` rules R120 to R123, R125). -/

namespace Sys2Proof.Machine

/-- A String: a finite sequence of Unicode scalar values (rule R125); Lean's `Char` is exactly a scalar value. -/
abbrev Text := List Char

/-- `Result<T, E>` (rule R125). -/
inductive Result (α ε : Type) where
  | ok (v : α)
  | err (e : ε)
  deriving DecidableEq, Repr

/-- The error kinds of the contract (rule R125). -/
inductive DecryptError where
  | invalidLength
  | decodeError
  deriving DecidableEq, Repr

/-- The little-endian code units of a byte sequence, `none` when the byte count is odd (rule R120). -/
def codeUnits : List Byte → Option (List Nat)
  | [] => some []
  | [_] => none
  | lo :: hi :: rest => (codeUnits rest).map ((lo.toNat + 256 * hi.toNat) :: ·)

/-- A high surrogate (rule R120). -/
def isHigh (u : Nat) : Bool := decide (0xD800 ≤ u) && decide (u ≤ 0xDBFF)

/-- A low surrogate (rule R120). -/
def isLow (u : Nat) : Bool := decide (0xDC00 ≤ u) && decide (u ≤ 0xDFFF)

/-- The scalar value of a surrogate pair (rule R120). -/
def pairValue (hi lo : Nat) : Nat := 0x10000 + (hi - 0xD800) * 0x400 + (lo - 0xDC00)

/-- The scalar values of a sequence of code units, `none` when a surrogate stands unpaired (rule R120). -/
def scalarsOf : List Nat → Option Text
  | [] => some []
  | [u] => if isHigh u || isLow u then none else some [Char.ofNat u]
  | u :: l :: rest =>
    if isHigh u then
      if isLow l then (scalarsOf rest).map (Char.ofNat (pairValue u l) :: ·) else none
    else if isLow u then none
    else (scalarsOf (l :: rest)).map (Char.ofNat u :: ·)

/-- Utf16leDecode (rules R120, R121): little-endian always, no byte-order mark, every error the one kind DecodeError. -/
def utf16leDecode (b : List Byte) : Result Text DecryptError :=
  match codeUnits b with
  | none => .err .decodeError
  | some us =>
    match scalarsOf us with
    | none => .err .decodeError
    | some t => .ok t

/-- NUL, the scalar value 0 (rule R9). -/
def nul : Char := Char.ofNat 0

/-- TrimNul (rule R122): while the last character is NUL it is removed. -/
def trimNul (t : Text) : Text := (t.reverse.dropWhile (· == nul)).reverse

/-- The two bytes of a code unit, low byte first (rule R123). -/
def unitBytes (u : Nat) : List Byte := [BitVec.ofNat 8 (u % 256), BitVec.ofNat 8 (u / 256)]

/-- The bytes of one scalar value (rule R123). -/
def scalarBytes (c : Char) : List Byte :=
  if c.toNat < 0x10000 then unitBytes c.toNat
  else unitBytes (0xD800 + (c.toNat - 0x10000) / 0x400) ++ unitBytes (0xDC00 + (c.toNat - 0x10000) % 0x400)

/-- Utf16leEncode, for the round-trip law only (rule R123). -/
def utf16leEncode (t : Text) : List Byte := t.flatMap scalarBytes

/-- PadNul (rule R123): zero bytes up to the next positive multiple of 16; the empty sequence becomes one block. -/
def padNul (b : List Byte) : List Byte :=
  b ++ List.replicate (if b.length = 0 then 16 else (16 - b.length % 16) % 16) 0#8

end Sys2Proof.Machine
end

