-- ==== Sys2Proof/Machine/Contract.lean ====
section
/-! DEFINITION. The contract `decrypt(ciphertext: bytes) -> Result<String, DecryptError>`
(`43_utf16le_software_layer.md` rule R124). -/

namespace Sys2Proof.Machine

/-- Decrypt, for any KEY and IV (rule R124): InvalidLength is decided before any decryption, DecodeError after it. -/
def decryptWith (c : Config) (ct : List Byte) : Result Text DecryptError :=
  if ct.length = 0 ∨ ct.length % 16 ≠ 0 then .err .invalidLength
  else
    match utf16leDecode (cbcDecrypt c.key c.iv ct) with
    | .err e => .err e
    | .ok t => .ok (trimNul t)

/-- Decrypt of this engine's software layer (rule R124). -/
def decrypt (ct : List Byte) : Result Text DecryptError := decryptWith engineConfig ct

end Sys2Proof.Machine
end

