-- ==== Sys2Proof/Machine/Driver.lean ====
section
/-! DEFINITION. The driver procedure (`43_utf16le_software_layer.md` rule R126) as an agent: it issues one transaction at
its turn, sees the value the port answers, and goes on from there. It reaches the engine only through
`Sys2Proof.Machine.step`. A schedule says who moves: the driver, ENGINE, or the environment with a reset. -/

namespace Sys2Proof.Machine

/-- What the driver ends with: a Result, or one of the two cases in which it refuses to give one. -/
inductive DriverResult where
  /-- `Ok(P)`. -/
  | ok (plain : List Byte)
  /-- `Err(e)`; the driver sees InvalidLength only. -/
  | err (e : DecryptError)
  /-- The ciphertext has 2^32 bytes or more: LEN cannot hold its length (rule R126, U6). -/
  | tooLong
  /-- The final STATUS was not 0x00000002: no result, in particular not the bytes collected (rule R126, U7). -/
  | noResult
  deriving DecidableEq, Repr

/-- Where the driver is in the procedure of rule R126: each value names the transaction it issues next. -/
inductive DriverPc where
  | firstClear
  | setlen
  | start
  | firstStat
  | errClear
  | push
  | waito
  | pop
  | lastStat
  | lastClear
  | returned (r : DriverResult)
  deriving DecidableEq, Repr

/-- The driver between two of its transactions. -/
structure DriverState where
  /-- n, the length of the ciphertext. -/
  size : Nat
  /-- Where it is. -/
  pc : DriverPc
  /-- The ciphertext bytes still to be pushed. -/
  todo : List Byte
  /-- j of the loop in progress: transactions of this block's sixteen already issued. -/
  count : Nat
  /-- P, the plaintext bytes collected. -/
  plain : List Byte
  /-- s of the last STAT. -/
  status : Word
  deriving DecidableEq, Repr

/-- The driver called with ciphertext C (rule R126): its precondition first. -/
def DriverState.init (c : List Byte) : DriverState where
  size := c.length
  pc := if c.length < lengthBound then .firstClear else .returned .tooLong
  todo := c
  count := 0
  plain := []
  status := 0#32

/-- The transaction the driver issues at its turn, none when it has returned (rule R126). -/
def DriverState.issues (d : DriverState) : Option Instr :=
  match d.pc with
  | .firstClear => some .clear
  | .setlen => some (.setlen (BitVec.ofNat 32 d.size))
  | .start => some .start
  | .firstStat => some .stat
  | .errClear => some .clear
  | .push => some (.push (d.todo.headD 0#8))
  | .waito => some .stat
  | .pop => some .pop
  | .lastStat => some .stat
  | .lastClear => some .clear
  | .returned _ => none

/-- The head of the driver's loop over the blocks: sixteen more bytes, or the end (rule R126). -/
def DriverState.nextBlock (d : DriverState) : DriverState :=
  if 16 ≤ d.todo.length then { d with pc := .push, count := 0 } else { d with pc := .lastStat, count := 0 }

/-- The result of the procedure after its last CLEAR (rule R126). -/
def DriverState.result (d : DriverState) : DriverResult :=
  if d.status = 0x00000002#32 then .ok d.plain else .noResult

/-- The driver after its transaction, v being the value the port answered, 0 for a write (rule R126). -/
def DriverState.after (d : DriverState) (v : Word) : DriverState :=
  match d.pc with
  | .firstClear => { d with pc := .setlen }
  | .setlen => { d with pc := .start }
  | .start => { d with pc := .firstStat }
  | .firstStat =>
    if v.extractLsb' 0 2 = 3#2 then { d with pc := .errClear, status := v }
    else { d with status := v }.nextBlock
  | .errClear => { d with pc := .returned (.err .invalidLength) }
  | .push =>
    if d.count + 1 = 16 then { d with pc := .waito, todo := d.todo.tail, count := 0 }
    else { d with todo := d.todo.tail, count := d.count + 1 }
  | .waito => if v.getLsbD 3 then { d with pc := .pop, count := 0, status := v } else { d with status := v }
  | .pop =>
    if d.count + 1 = 16 then { d with plain := d.plain ++ [v.setWidth 8] }.nextBlock
    else { d with plain := d.plain ++ [v.setWidth 8], count := d.count + 1 }
  | .lastStat => { d with pc := .lastClear, status := v }
  | .lastClear => { d with pc := .returned d.result }
  | .returned r => { d with pc := .returned r }

/-- Who moves next (rules R10, R160). -/
inductive Turn where
  | host
  | engine
  | reset
  deriving DecidableEq, Repr

/-- The driver and the engine side by side. -/
structure System where
  driver : DriverState
  engine : State
  deriving DecidableEq, Repr

/-- The engine after one event, whatever its agenda was: the event is put on an empty agenda and the machine steps. A
step that stopped would leave the engine as it is; none does (rule R140). -/
def State.perform (s : State) (e : Event) : State :=
  match step { s with agenda := [e] } with
  | .next t => t
  | .fault _ => s
  | .refused _ => s

/-- One turn of the system. -/
def System.turn (y : System) : Turn → System
  | .engine => { y with engine := y.engine.perform .engine }
  | .reset => { y with engine := y.engine.perform .reset }
  | .host =>
    match y.driver.issues with
    | none => y
    | some i =>
      { driver := y.driver.after ((y.engine.perform (.host (encode i))).rdata.getD 0#32)
        engine := y.engine.perform (.host (encode i)) }

/-- The system after the first n turns of a schedule. -/
def System.run (sched : Nat → Turn) (y : System) : Nat → System
  | 0 => y
  | n + 1 => (System.run sched y n).turn (sched n)

/-- The driver has returned r. -/
def System.returned (y : System) (r : DriverResult) : Prop := y.driver.pc = .returned r

/-- A schedule without a reset in which the driver and ENGINE each have their turn again and again: the fairness
assumption of rule R166 (an enabled block step happens sooner or later), and a host that goes on issuing. -/
structure FairSchedule (sched : Nat → Turn) : Prop where
  noReset : ∀ n, sched n ≠ .reset
  engineAgain : ∀ n, ∃ m, n ≤ m ∧ sched m = .engine
  hostAgain : ∀ n, ∃ m, n ≤ m ∧ sched m = .host

/-- Driver(C) as rule R127 gives it. -/
def driverAnswer (c : List Byte) : DriverResult :=
  if c.length = 0 ∨ c.length % 16 ≠ 0 then .err .invalidLength
  else .ok (cbcDecrypt engineConfig.key engineConfig.iv c)

end Sys2Proof.Machine
end

