-- ==== Sys2Proof/Machine/Assembler.lean ====
section
/-! DEFINITION. The assembler syntax and the pseudo-instructions (`30_encoding.md` rules R53, R54). -/

namespace Sys2Proof.Machine

/-- A line of the assembler: a mnemonic with its operand, or a raw access (rule R53). -/
inductive AsmLine where
  | start
  | clear
  | setlen (n : Word)
  | push (b : Byte)
  | stat
  | getlen
  | pop
  | geticnt
  | getocnt
  /-- `WR a, v`. -/
  | wr (a : Offset) (v : Word)
  /-- `RD a`. -/
  | rd (a : Offset)
  deriving DecidableEq, Repr

/-- The word the assembler writes for a line, zero in ignored bits (rule R53). -/
def assemble : AsmLine → TWord
  | .start => encode .start
  | .clear => encode .clear
  | .setlen n => encode (.setlen n)
  | .push b => encode (.push b)
  | .stat => encode .stat
  | .getlen => encode .getlen
  | .pop => encode .pop
  | .geticnt => encode .geticnt
  | .getocnt => encode .getocnt
  | .wr a v => packTW .write a v
  | .rd a => packTW .read a 0#32

/-- One item of a host program: a line, or the wait for a flag of STATUS (rule R54). -/
inductive HostOp where
  | line (l : AsmLine)
  /-- Repeat STAT until the named bit of the value read is 1. -/
  | waitBit (bit : Nat)
  deriving DecidableEq, Repr

/-- The pseudo-instructions but for DECRYPT, which is the driver of Machine/Driver.lean (rule R54). -/
inductive Pseudo where
  | pushblk (b : Block)
  | popblk
  | waiti
  | waito
  deriving DecidableEq, Repr

/-- The expansions of rule R54. -/
def Pseudo.expand : Pseudo → List HostOp
  | .pushblk b => b.toList.map fun x => .line (.push x)
  | .popblk => List.replicate 16 (.line .pop)
  | .waiti => [.waitBit 2]
  | .waito => [.waitBit 3]

/-- A host program in progress: the items still to do, the values its reads returned, in order. -/
structure Script where
  ops : List HostOp
  reads : List Word
  deriving DecidableEq, Repr

/-- The word a script issues at its turn. -/
def Script.issues (p : Script) : Option TWord :=
  match p.ops with
  | [] => none
  | .line l :: _ => some (assemble l)
  | .waitBit _ :: _ => some (encode .stat)

/-- The script after its transaction, with the port's answer (none for a write). -/
def Script.after (p : Script) (v : Option Word) : Script :=
  match p.ops with
  | [] => p
  | .line _ :: rest => { ops := rest, reads := p.reads ++ v.toList }
  | .waitBit n :: rest =>
    { ops := if (v.getD 0#32).getLsbD n then rest else p.ops, reads := p.reads ++ v.toList }

/-- A script and the engine after one turn. -/
def Script.turn (p : Script) (s : State) : Turn → Script × State
  | .engine => (p, s.perform .engine)
  | .reset => (p, s.perform .reset)
  | .host =>
    match p.issues with
    | none => (p, s)
    | some tw => (p.after (s.perform (.host tw)).rdata, s.perform (.host tw))

/-- A script and the engine after the first n turns of a schedule. -/
def Script.run (sched : Nat → Turn) (p : Script) (s : State) : Nat → Script × State
  | 0 => (p, s)
  | n + 1 => (Script.run sched p s n).1.turn (Script.run sched p s n).2 (sched n)

end Sys2Proof.Machine
end

