-- ==== Sys2Proof/Machine/CommandLine.lean ====
section
/-! DEFINITION. The command-line boundary (`43_utf16le_software_layer.md` rules R130 to R133, decision D20). -/

namespace Sys2Proof.Machine

/-- The one error of ParseArg (rule R131). -/
inductive ParseError where
  | parseError
  deriving DecidableEq, Repr

/-- The argument split at every newline U+000A: k newlines give k+1 lines (rule R131). -/
def splitLines : Text → List Text
  | [] => [[]]
  | c :: cs =>
    if c.toNat = 0x0A then [] :: splitLines cs
    else
      match splitLines cs with
      | [] => [[c]]
      | l :: ls => (c :: l) :: ls

/-- One of the characters '0' to '9' (rule R131). -/
def isDecimal (c : Char) : Bool := decide (0x30 ≤ c.toNat) && decide (c.toNat ≤ 0x39)

/-- The decimal value of a line of digits (rule R131). -/
def decimalValue (l : Text) : Nat := l.foldl (fun v c => 10 * v + (c.toNat - 0x30)) 0

/-- One line of the argument: one or more digits, value at most 255 (rule R131). -/
def parseLine (l : Text) : Option Byte :=
  if l.isEmpty || !(l.all isDecimal) then none
  else if 255 < decimalValue l then none
  else some (BitVec.ofNat 8 (decimalValue l))

/-- The lines in order; the first that does not parse ends it (rule R131). -/
def parseLines : List Text → Option (List Byte)
  | [] => some []
  | l :: ls =>
    match parseLine l with
    | none => none
    | some b => (parseLines ls).map (b :: ·)

/-- ParseArg (rule R131). -/
def parseArg (a : Text) : Result (List Byte) ParseError :=
  match parseLines (splitLines a) with
  | none => .err .parseError
  | some b => .ok b

/-- How the program ends (rule R132): the credential, or one error kind. -/
inductive ProgramEnd where
  | success (credential : Text)
  | failure (kind : ErrorKind)
  deriving DecidableEq, Repr

/-- Main up to the printing (rules R130, R132): the checks in the order UsageError, ParseError, InvalidLength,
DecodeError, the first that fails being the one reported. -/
def programEnd (args : List Text) : ProgramEnd :=
  match args with
  | [a] =>
    match parseArg a with
    | .err _ => .failure .parseError
    | .ok ct =>
      match decrypt ct with
      | .err .invalidLength => .failure .invalidLength
      | .err .decodeError => .failure .decodeError
      | .ok t => .success t
  | _ => .failure .usageError

/-- "Found password: " (rule R132, decision D20). -/
def foundPrefix : Text :=
  ['F', 'o', 'u', 'n', 'd', ' ', 'p', 'a', 's', 's', 'w', 'o', 'r', 'd', ':', ' ']

/-- The message that reports an error kind: MSG_TEXT (rules R132, R133, D20). -/
def messageText (k : ErrorKind) : Text := (@Config.messages ⟨someMessages⟩).text k

/-- What the program prints, before line end and encoding (rule R132). -/
def ProgramEnd.text : ProgramEnd → Text
  | .success t => foundPrefix ++ t
  | .failure k => messageText k

/-- Where it prints it: the credential on standard output, a message on ERR_STREAM (rule R132, D20). -/
def ProgramEnd.stream : ProgramEnd → Stream
  | .success _ => .stdout
  | .failure k => Config.errStream k

/-- The bytes printed: LINE_END follows the credential, OUT_ENCODING makes bytes of characters (D20). -/
def ProgramEnd.bytes : ProgramEnd → List Byte
  | .success t => Config.outEncoding (foundPrefix ++ t ++ Config.lineEnd)
  | .failure k => Config.outEncoding (messageText k)

/-- The exit status: 0 on success, 1 on every failure (rule R132, `90_conflicts.md` C5). -/
def ProgramEnd.exitStatus : ProgramEnd → Nat
  | .success _ => 0
  | .failure _ => 1

/-- Main: the text printed and the exit status (rule R132). -/
def programMain (args : List Text) : Text × Nat := ((programEnd args).text, (programEnd args).exitStatus)

end Sys2Proof.Machine
end

