-- ==== Sys2Proof/Machine/Trace.lean ====
section
/-! DEFINITION. The two byte streams of a run (`20_memory.md` rule R35), and runs over a list of events: what claims
about whole messages speak of. None of this is state of the engine. -/

namespace Sys2Proof.Machine

/-- C and D of rule R35: the bytes accepted at DIN, and those delivered at DOUT, since the last accepted START. -/
structure Streams where
  /-- C, first byte first. -/
  sent : List Byte
  /-- D, first byte first. -/
  got : List Byte
  deriving DecidableEq, Repr

/-- Nothing sent and nothing got. -/
def Streams.empty : Streams := ⟨[], []⟩

/-- The streams after transaction i is performed in state s (rule R35): an accepted START and a CLEAR begin anew, an
accepted PUSH adds to C, a delivering POP adds to D. -/
def Streams.record (s : State) (h : Streams) : Instr → Streams
  | .start => if s.phase = .idle ∧ badLength s.len = false then .empty else h
  | .clear => .empty
  | .push b => if s.irdy then { h with sent := h.sent ++ [b] } else h
  | .pop => if s.ordy then { h with got := h.got ++ [s.nextOut] } else h
  | .ctrlrsvd _ => h
  | .setlen _ => h
  | .stat => h
  | .getlen => h
  | .geticnt => h
  | .getocnt => h
  | .illegal _ _ => h

/-- The streams after the step that state s takes. -/
def Streams.after (s : State) (h : Streams) : Streams :=
  match s.agenda with
  | [] => h
  | .engine :: _ => h
  | .reset :: _ => .empty
  | .host tw :: _ => h.record s (decode tw)

/-- The state after a list of events, first one first. -/
def State.performAll (s : State) : List Event → State
  | [] => s
  | e :: es => (s.perform e).performAll es

/-- The transaction of an event, if it is one. -/
def Event.instr? : Event → Option Instr
  | .host tw => some (decode tw)
  | .engine => none
  | .reset => none

/-- The byte a PUSH event offers. -/
def Event.pushed : Event → List Byte
  | .host tw =>
    match decode tw with
    | .push b => [b]
    | .start | .clear | .ctrlrsvd _ | .setlen _ | .stat | .getlen | .pop | .geticnt | .getocnt | .illegal _ _ => []
  | .engine => []
  | .reset => []

/-- The bytes offered by the PUSH transactions of a list of events, in order. -/
def pushedBytes (es : List Event) : List Byte := es.flatMap Event.pushed

/-- What a POP event performed in state s returns, as a byte. -/
def Event.popped (s : State) (e : Event) : List Byte :=
  if e.instr? = some .pop then [((s.perform e).rdata.getD 0#32).setWidth 8] else []

/-- The bytes that the POP transactions of a list of events return, in order, from state s on. -/
def poppedBytes (s : State) : List Event → List Byte
  | [] => []
  | e :: es => e.popped s ++ poppedBytes (s.perform e) es

/-- The values the reads of a list of events return, in order, from state s on (`none` for a write or another event). -/
def State.answers (s : State) : List Event → List (Option Word)
  | [] => []
  | e :: es => (if e.instr?.isSome then (s.perform e).rdata else none) :: (s.perform e).answers es

/-- The events of one message once it is started (rule R85): a turn of ENGINE, a PUSH, a POP, or a read without side
effect. -/
def Event.inMessage : Event → Bool
  | .engine => true
  | .reset => false
  | .host tw =>
    match decode tw with
    | .push _ | .pop | .stat | .getlen | .geticnt | .getocnt => true
    | .start | .clear | .ctrlrsvd _ | .setlen _ | .illegal _ _ => false

/-- The state in which a message of n bytes has just been started from reset: SETLEN n, then START (rule R85). -/
def startedWith (n : Word) : State :=
  State.reset.performAll [.host (encode (.setlen n)), .host (encode .start)]

end Sys2Proof.Machine
end

