-- ==== Sys2Proof/Safety.lean ====
section
/-! DEFINITION. What a sound state and a sound run are: the invariants of `10_state.md` rule R27, the stream law of
`20_memory.md` rule R35, the protocol violations of `60_exceptions.md` rule R142, and what a host can see of a state. -/

namespace Sys2Proof.Machine

/-- The invariants a to h of rule R27 (item i is part of `StreamInv`). -/
structure State.Inv (s : State) : Prop where
  /-- Item a. -/
  idle : s.phase = .idle →
    s.icnt = 0#32 ∧ s.ocnt = 0#32 ∧ s.ifill = 0 ∧ s.orem = 0 ∧ s.errcode = 0#4 ∧
      s.prev = zeroBlock ∧ s.ibuf = zeroBlock ∧ s.obuf = zeroBlock
  /-- Item b. -/
  err : s.phase = .err →
    s.errcode = 1#4 ∧ s.icnt = 0#32 ∧ s.ocnt = 0#32 ∧ s.ifill = 0 ∧ s.orem = 0 ∧
      s.prev = zeroBlock ∧ s.ibuf = zeroBlock ∧ s.obuf = zeroBlock ∧ badLength s.len = true
  /-- Item c. -/
  message : s.phase = .run ∨ s.phase = .done →
    s.errcode = 0#4 ∧ 0 < s.len.toNat ∧ s.len.toNat % 16 = 0 ∧
      s.ocnt.toNat + s.orem.val ≤ s.icnt.toNat ∧ s.icnt.toNat ≤ s.len.toNat ∧
      (s.ocnt.toNat + s.orem.val) % 16 = 0 ∧ s.ifill.val + (s.ocnt.toNat + s.orem.val) = s.icnt.toNat
  /-- Item d. -/
  place : s.phase = .run ∨ s.phase = .done →
    s.orem.val = 0 ∨ s.ocnt.toNat % 16 = (16 - s.orem.val) % 16
  /-- Item e. -/
  finished : s.phase = .done →
    s.ocnt = s.len ∧ s.icnt = s.len ∧ s.ifill = 0 ∧ s.orem = 0
  /-- Item f. -/
  outInRun : 0 < s.orem.val → s.phase = .run
  /-- Item g: a block step that is enabled is disabled by being performed. -/
  oneStep : s.busy = true → (s.blkStep engineConfig).busy = false
  /-- Item h. -/
  noDeadEnd : s.phase = .run → s.irdy = true ∨ s.ordy = true ∨ s.busy = true

/-- The plaintext of the whole blocks stepped so far (rule R35). -/
def State.steppedPlain (s : State) (h : Streams) : List Byte :=
  cbcDecrypt engineConfig.key engineConfig.iv (h.sent.take (16 * ((s.ocnt.toNat + s.orem.val) / 16)))

/-- The state against the streams C and D of the message (rule R35; rules R12, R27 items d and i). -/
structure StreamInv (s : State) (h : Streams) : Prop where
  inv : s.Inv
  sentCount : h.sent.length = s.icnt.toNat
  gotCount : h.got.length = s.ocnt.toNat
  /-- D is the first OCNT bytes of the plaintext stepped so far. -/
  delivered : h.got = (s.steppedPlain h).take s.ocnt.toNat
  /-- The unread bytes of OBUF are the rest of that plaintext. -/
  unread : s.obuf.toList.drop (16 - s.orem.val) = (s.steppedPlain h).drop s.ocnt.toNat
  /-- The valid bytes of IBUF are the bytes of C not yet stepped. -/
  unstepped : s.ibuf.toList.take s.ifill.val = h.sent.drop (s.ocnt.toNat + s.orem.val)
  /-- PREV is the IV before block 0, and the last ciphertext block stepped after it. -/
  chaining : s.phase = .run ∨ s.phase = .done →
    s.prev =
      if s.ocnt.toNat + s.orem.val = 0 then engineConfig.iv
      else blockOfList (h.sent.drop (s.ocnt.toNat + s.orem.val - 16))

/-- The protocol violations, row by row of rule R142: does performing i in state s set PERR? -/
def violates (s : State) : Instr → Bool
  | .start => decide (s.phase ≠ .idle)
  | .ctrlrsvd _ => true
  | .setlen _ => decide (s.phase ≠ .idle)
  | .push _ => !s.irdy
  | .pop => !s.ordy
  | .illegal _ _ => true
  | .clear | .stat | .getlen | .geticnt | .getocnt => false

/-- The read transactions: format R (rules R46, R49). -/
def isRead : Instr → Bool
  | .stat | .getlen | .pop | .geticnt | .getocnt => true
  | .illegal .read _ => true
  | .illegal .write _ => false
  | .start | .clear | .ctrlrsvd _ | .setlen _ | .push _ => false

/-- The next value of STATE, from the table of rule R71: transaction i in state s. -/
def stateTable (s : State) : Instr → Phase
  | .start =>
    match s.phase with
    | .idle => if badLength s.len then .err else .run
    | .run => .run
    | .done => .done
    | .err => .err
  | .clear => .idle
  | .pop =>
    match s.phase with
    | .idle => .idle
    | .run => if s.ordy && decide (s.ocnt + 1#32 = s.len) then .done else .run
    | .done => .done
    | .err => .err
  | .ctrlrsvd _ | .setlen _ | .push _ | .stat | .getlen | .geticnt | .getocnt | .illegal _ _ => s.phase

/-- Two states a host cannot tell apart (rules R26, R168): they may differ only in PREV outside RUN, in the bytes of
IBUF that are not valid and in the bytes of OBUF already read. -/
structure SameToHost (s t : State) : Prop where
  phase : s.phase = t.phase
  errcode : s.errcode = t.errcode
  perr : s.perr = t.perr
  len : s.len = t.len
  icnt : s.icnt = t.icnt
  ocnt : s.ocnt = t.ocnt
  ifill : s.ifill = t.ifill
  orem : s.orem = t.orem
  prev : s.phase = .run → s.prev = t.prev
  ibuf : ∀ i, i < s.ifill.val → byteAt s.ibuf i = byteAt t.ibuf i
  obuf : ∀ i, 16 - s.orem.val ≤ i → byteAt s.obuf i = byteAt t.obuf i
  rdata : s.rdata = t.rdata
  agenda : s.agenda = t.agenda

/-- The end of a run that delivered its message and in which the host kept the protocol (rules R142, R169). -/
def State.goodEnd (s : State) : Prop := s.phase = .done ∧ s.perr = false ∧ s.ocnt = s.len ∧ s.icnt = s.len

end Sys2Proof.Machine
end

