-- ==== Sys2Proof/Certificates/Slice0/Obligations.lean ====
section
/-! DEFINITION. The statements for the provers. -/

open Sys2Proof Sys2Proof.Machine

/-! ### The eleven transactions: decoding, effect, frame and completion -/

/-- Rule R60, whole: which words are STAT; the value read, bit by bit; nothing else changes; two reads with a block step
between them differ in bits 2, 3 and 4 alone, in the directions the rule names; the rule's two examples. -/
def Obligations.StatReturnsStatus : Prop :=
  (∀ tw : TWord, twDir tw = .read → twAddr tw = 0x04#8 → decode tw = .stat) ∧
  (∀ s : State, ∃ v : Word,
    exec .stat s = .next { s with rdata := some v } ∧
    v.extractLsb' 0 2 = phaseCode s.phase ∧
    (v.getLsbD 2 = true ↔ s.phase = .run ∧ s.ifill.val < 16 ∧ s.icnt.toNat < s.len.toNat) ∧
    (v.getLsbD 3 = true ↔ 0 < s.orem.val) ∧
    (v.getLsbD 4 = true ↔ s.phase = .run ∧ s.ifill.val = 16 ∧ s.orem.val = 0) ∧
    v.getLsbD 5 = s.perr ∧ v.extractLsb' 6 2 = 0#2 ∧
    v.extractLsb' 8 4 = s.errcode ∧ v.extractLsb' 12 20 = 0#20) ∧
  (∀ s : State, s.busy = true →
    s.statusWord.extractLsb' 2 3 = 0b100#3 ∧
    (s.blkStep engineConfig).statusWord.extractLsb' 3 2 = 0b01#2 ∧
    ((s.blkStep engineConfig).statusWord.getLsbD 2 = true ↔ s.icnt.toNat < s.len.toNat) ∧
    (s.blkStep engineConfig).statusWord.extractLsb' 0 2 = s.statusWord.extractLsb' 0 2 ∧
    (s.blkStep engineConfig).statusWord.extractLsb' 5 27 = s.statusWord.extractLsb' 5 27) ∧
  (State.reset.perform (.host (encode .stat))).rdata = some 0x00000000#32 ∧
  ((startedWith 8#32).perform (.host (encode .stat))).rdata = some 0x00000103#32

/-- Rule R65, whole: which words are GETLEN, the value read in every state, in ERR the refused length; the example. -/
def Obligations.GetlenReturnsLen : Prop :=
  (∀ tw : TWord, twDir tw = .read → twAddr tw = 0x08#8 → decode tw = .getlen) ∧
  (∀ s : State, exec .getlen s = .next { s with rdata := some s.len }) ∧
  (∀ s t : State, s.phase = .idle → badLength s.len = true → exec .start s = .next t →
    exec .getlen t = .next { t with rdata := some s.len }) ∧
  (State.reset.performAll [.host (encode (.setlen 40#32)), .host (encode .getlen)]).rdata = some 40#32

/-- Rule R68, whole: which words are GETICNT, the value read, 0 in IDLE and ERR, LEN in DONE; the example. -/
def Obligations.GeticntReturnsIcnt : Prop :=
  (∀ tw : TWord, twDir tw = .read → twAddr tw = 0x14#8 → decode tw = .geticnt) ∧
  (∀ s : State, exec .geticnt s = .next { s with rdata := some s.icnt }) ∧
  (∀ s : State, s.Inv → s.phase = .idle ∨ s.phase = .err → s.icnt = 0#32) ∧
  (∀ s : State, s.Inv → s.phase = .done → s.icnt = s.len) ∧
  ((startedWith 16#32).performAll
    (List.replicate 5 (.host (encode (.push 0x5a#8))) ++ [.host (encode .geticnt)])).rdata = some 5#32

/-- Rule R69, whole: which words are GETOCNT, the value read, 0 in IDLE and ERR, LEN in DONE; the example. -/
def Obligations.GetocntReturnsOcnt : Prop :=
  (∀ tw : TWord, twDir tw = .read → twAddr tw = 0x18#8 → decode tw = .getocnt) ∧
  (∀ s : State, exec .getocnt s = .next { s with rdata := some s.ocnt }) ∧
  (∀ s : State, s.Inv → s.phase = .idle ∨ s.phase = .err → s.ocnt = 0#32) ∧
  (∀ s : State, s.Inv → s.phase = .done → s.ocnt = s.len) ∧
  ((startedWith 16#32).performAll
    (List.replicate 16 (.host (encode (.push 0x5a#8))) ++
      (.engine :: List.replicate 3 (.host (encode .pop))) ++ [.host (encode .getocnt)])).rdata = some 3#32

/-- Rule R61, whole: START outside IDLE is a violation and nothing else, in IDLE with a bad length it raises
InvalidLength, else it opens the message; the flags on that path; the example. -/
def Obligations.StartOpensOrRefuses : Prop :=
  (∀ tw : TWord, twDir tw = .write → twAddr tw = 0x00#8 → twLow tw = 0x01#8 → decode tw = .start) ∧
  (∀ s : State, s.phase ≠ .idle → ∃ r, exec .start s = .next { s with perr := true, rdata := r }) ∧
  (∀ s : State, s.phase = .idle → s.len.toNat = 0 ∨ s.len.toNat % 16 ≠ 0 →
    ∃ r, exec .start s = .next { s with phase := .err, errcode := 1#4, rdata := r }) ∧
  (∀ s : State, s.phase = .idle → 0 < s.len.toNat → s.len.toNat % 16 = 0 →
    ∃ t : State, exec .start s = .next t ∧
      t = { s with phase := .run, prev := engineConfig.iv, icnt := 0#32, ocnt := 0#32, ifill := 0, orem := 0,
                   rdata := t.rdata } ∧
      t.irdy = true ∧ t.ordy = false ∧ t.busy = false) ∧
  ((startedWith 16#32).perform (.host (encode .stat))).rdata = some 0x00000005#32

/-- Rule R62, whole: CLEAR in every state puts every element at its reset value, whatever was enabled or pending. -/
def Obligations.ClearRestoresReset : Prop :=
  (∀ tw : TWord, twDir tw = .write → twAddr tw = 0x00#8 → twLow tw = 0x02#8 → decode tw = .clear) ∧
  (∀ s : State, ∃ t : State, exec .clear s = .next t ∧
    t = { phase := .idle, errcode := 0#4, perr := false, len := 0#32, icnt := 0#32, ocnt := 0#32, ifill := 0,
          orem := 0, prev := zeroBlock, ibuf := zeroBlock, obuf := zeroBlock, rdata := t.rdata, agenda := s.agenda } ∧
    t = { s.resetEvent with rdata := t.rdata } ∧ t.busy = false) ∧
  (∀ s : State, s.phase = .err →
    (s.performAll [.host (encode .clear), .host (encode .stat)]).rdata = some 0x00000000#32 ∧
    (s.performAll [.host (encode .clear), .host (encode .getlen)]).rdata = some 0#32)

/-- Rule R63, whole: a reserved command code sets PERR and does nothing else; WDATA[31:8] plays no part. -/
def Obligations.CtrlrsvdSetsPerr : Prop :=
  (∀ tw : TWord, twDir tw = .write → twAddr tw = 0x00#8 → twLow tw ≠ 0x01#8 → twLow tw ≠ 0x02#8 →
    decode tw = .ctrlrsvd (twLow tw)) ∧
  (∀ (cmd : Byte) (s : State), ∃ r, exec (.ctrlrsvd cmd) s = .next { s with perr := true, rdata := r }) ∧
  decode (packTW .write 0x00#8 0x00000101#32) = .start ∧
  (State.reset.performAll [.host (packTW .write 0x00#8 0x03#32), .host (encode .stat)]).rdata = some 0x00000020#32

/-- Rule R64, whole: LEN is stored in IDLE, any value, the last write standing; elsewhere a violation. -/
def Obligations.SetlenStoresInIdle : Prop :=
  (∀ tw : TWord, twDir tw = .write → twAddr tw = 0x08#8 → decode tw = .setlen (twData tw)) ∧
  (∀ (n : Word) (s : State), s.phase = .idle → ∃ r, exec (.setlen n) s = .next { s with len := n, rdata := r }) ∧
  (∀ (n : Word) (s : State), s.phase ≠ .idle →
    ∃ r, exec (.setlen n) s = .next { s with perr := true, rdata := r }) ∧
  (∀ (n m : Word) (s t : State), s.phase = .idle → exec (.setlen n) s = .next t →
    ∃ r, exec (.setlen m) t = .next { s with len := m, rdata := r }) ∧
  (State.reset.performAll [.host (encode (.setlen 0#32)), .host (encode .start)]).phase = .err ∧
  (State.reset.performAll [.host (encode (.setlen 32#32)), .host (encode .getlen)]).rdata = some 32#32

/-- Rule R66: a PUSH with IRDY = 1 puts the byte at IBUF[IFILL] and moves IFILL and ICNT on by one, exactly; when IRDY
and BUSY change; a PUSH with IRDY = 0 is dropped; the example. -/
def Obligations.PushAcceptsOrDrops : Prop :=
  (∀ tw : TWord, twDir tw = .write → twAddr tw = 0x0C#8 → decode tw = .push (twLow tw)) ∧
  (∀ (b : Byte) (s : State), s.phase = .run → s.ifill.val < 16 → s.icnt.toNat < s.len.toNat →
    ∃ t : State, exec (.push b) s = .next t ∧
      t = { s with ibuf := t.ibuf, ifill := t.ifill, icnt := t.icnt, rdata := t.rdata } ∧
      (∀ i, i < 16 → byteAt t.ibuf i = if i = s.ifill.val then b else byteAt s.ibuf i) ∧
      t.ifill.val = s.ifill.val + 1 ∧ t.icnt.toNat = s.icnt.toNat + 1 ∧
      (t.irdy = true ↔ s.ifill.val + 1 < 16 ∧ s.icnt.toNat + 1 < s.len.toNat) ∧
      (t.busy = true ↔ s.ifill.val + 1 = 16 ∧ s.orem.val = 0)) ∧
  (∀ (b : Byte) (s : State), ¬ (s.phase = .run ∧ s.ifill.val < 16 ∧ s.icnt.toNat < s.len.toNat) →
    ∃ r, exec (.push b) s = .next { s with perr := true, rdata := r }) ∧
  (let t := (startedWith 16#32).perform (.host (encode (.push 0x5a#8)))
   byteAt t.ibuf 0 = 0x5a#8 ∧ t.ifill.val = 1 ∧ t.icnt = 1#32)

/-- Rule R67: a POP with ORDY = 1 returns OBUF[16 - OREM] zero-extended, moves OREM and OCNT by one, and moves STATE to
DONE with the last byte; OBUF is not erased; a POP with ORDY = 0 returns 0 and sets PERR; the rule's example. -/
def Obligations.PopDeliversOrFlags : Prop :=
  (∀ tw : TWord, twDir tw = .read → twAddr tw = 0x10#8 → decode tw = .pop) ∧
  (∀ s : State, 0 < s.orem.val →
    ∃ t : State, exec .pop s = .next t ∧
      t = { s with rdata := some ((byteAt s.obuf (16 - s.orem.val)).setWidth 32), orem := t.orem,
                   ocnt := s.ocnt + 1#32, phase := if s.ocnt + 1#32 = s.len then .done else s.phase } ∧
      t.orem.val = s.orem.val - 1 ∧
      (t.ordy = true ↔ s.orem.val ≠ 1) ∧
      (s.Inv → t.ocnt.toNat = s.ocnt.toNat + 1) ∧
      (s.Inv → (t.busy = true ↔ s.orem.val = 1 ∧ s.ifill.val = 16)) ∧
      (s.Inv → s.perr = false → s.ocnt + 1#32 = s.len → t.statusWord = 0x00000002#32)) ∧
  (∀ s : State, s.orem.val = 0 → exec .pop s = .next { s with perr := true, rdata := some 0#32 }) ∧
  poppedBytes
    (((startedWith 16#32).performAll
      ([0x5a#8, 0x34#8, 0x9e#8, 0x14#8, 0x3a#8, 0xa8#8, 0xe7#8, 0x95#8, 0x7a#8, 0x71#8, 0xd5#8, 0x98#8, 0x4b#8, 0x75#8,
        0xf1#8, 0xbf#8].map fun b => .host (encode (.push b)))).perform .engine)
    (List.replicate 3 (.host (encode .pop))) = [0x53#8, 0x00#8, 0x65#8]

/-- Rule R70, whole: which words are ILLEGAL; such a transaction sets PERR, a read returns 0, nothing else changes. -/
def Obligations.IllegalSetsPerrOnly : Prop :=
  (∀ tw : TWord,
    (twDir tw = .read ∧ (twAddr tw = 0x00#8 ∨ twAddr tw = 0x0C#8)) ∨
    (twDir tw = .write ∧ (twAddr tw = 0x04#8 ∨ twAddr tw = 0x10#8 ∨ twAddr tw = 0x14#8 ∨ twAddr tw = 0x18#8)) ∨
    0x1C ≤ (twAddr tw).toNat ∨ (twAddr tw).toNat % 4 ≠ 0 →
    decode tw = .illegal (twDir tw) (twAddr tw)) ∧
  (∀ (a : Offset) (s : State), exec (.illegal .read a) s = .next { s with perr := true, rdata := some 0#32 }) ∧
  (∀ (a : Offset) (s : State), ∃ r, exec (.illegal .write a) s = .next { s with perr := true, rdata := r }) ∧
  (State.reset.perform (.host (packTW .read 0x00#8 0#32))).rdata = some 0#32 ∧
  (State.reset.performAll [.host (packTW .read 0x00#8 0#32), .host (encode .stat)]).rdata = some 0x00000020#32

/-! ### Decoding and the step -/

/-- When the next event is a transaction word, the step is `exec` of the instruction it decodes to, the event used up
and nothing else done; a word put there by `withFetchWord` runs as exactly its instruction. -/
def Obligations.StepRunsDecodedTransaction : Prop :=
  (∀ (s : State) (tw : TWord) (rest : List Event), s.agenda = .host tw :: rest →
    step s = exec (decode tw) { s with agenda := rest }) ∧
  (∀ (s : State) (i : Instr), i.wf = true → step (s.withFetchWord 48 (encode i).toNat) = exec i s)

/-- Words written out from the encoding tables of rules R46 to R49 decode to the transactions they stand for. -/
def Obligations.WrittenWordsDecode : Prop :=
  decode 0x10000000001#41 = .start ∧ decode 0x10000000002#41 = .clear ∧ decode 0x10000000003#41 = .ctrlrsvd 0x03#8 ∧
  decode 0x10000000000#41 = .ctrlrsvd 0x00#8 ∧ decode 0x108FFFFFFF0#41 = .setlen 0xFFFFFFF0#32 ∧
  decode 0x10CFFFFFF34#41 = .push 0x34#8 ∧ decode 0x00400000000#41 = .stat ∧ decode 0x00800000000#41 = .getlen ∧
  decode 0x01000000000#41 = .pop ∧ decode 0x01400000000#41 = .geticnt ∧ decode 0x01800000000#41 = .getocnt ∧
  decode 0x00500000000#41 = .illegal .read 0x05#8 ∧ decode 0x1FC00000007#41 = .illegal .write 0xFC#8

/-- Decoding an encoded well-formed instruction gives it back, for every instruction and every operand. -/
def Obligations.DecodeOfEncode : Prop :=
  ∀ i : Instr, i.wf = true → decode (encode i) = i

/-- Encoding what a word decodes to gives the word back with the ignored bits zero, and only those (rules R46 to R48,
R51). -/
def Obligations.EncodeOfDecode : Prop :=
  ∀ tw : TWord, encode (decode tw) =
    packTW (twDir tw) (twAddr tw)
      (if twDir tw = .read then 0#32
       else if twAddr tw = 0x00#8 ∨ twAddr tw = 0x0C#8 then (twLow tw).setWidth 32
       else if twAddr tw = 0x08#8 then twData tw
       else 0#32)

/-- The bits a format ignores never change what a word decodes to: WDATA of a read, WDATA[31:8] of a CTRL or DIN write
(rules R46, R47, R51). -/
def Obligations.DecoderIgnoresUnusedBits : Prop :=
  ∀ tw tw' : TWord, twDir tw = twDir tw' → twAddr tw = twAddr tw' →
    (twDir tw = .read ∨ ((twAddr tw = 0x00#8 ∨ twAddr tw = 0x0C#8) ∧ twLow tw = twLow tw')) →
    decode tw = decode tw'

/-- The decoder is total on all 2^41 words and answers well-formed instructions only; rows 1, 2 and 4 to 10 of the
opcode map exclude one another (rule R49). -/
def Obligations.EveryWordIsOneTransaction : Prop :=
  (∀ tw : TWord, (decode tw).wf = true) ∧
  (opcodeRows.take 2 ++ (opcodeRows.drop 3).take 7).Pairwise fun r r' =>
    ∀ tw : TWord, ¬ (tw &&& r.mask = r.pattern ∧ tw &&& r'.mask = r'.pattern)

/-- No step of the machine stops: whatever the state and the events to come, there is a next state (rules R30, R140,
R143). -/
def Obligations.StepAlwaysAnswersNext : Prop :=
  ∀ s : State, ∃ t : State, step s = .next t

/-- Running the machine over a list of events is performing them one after another, whole and in order, and leaves no
event to come (rules R10, R39). -/
def Obligations.RunPerformsEventsInOrder : Prop :=
  ∀ (s : State) (es : List Event),
    core.run es.length { s with agenda := es } = .next { s.performAll es with agenda := [] }

/-! ### Reset, the error state, protocol violations -/

/-- Rules R28 and R160: the reset value of every element; the reset event, at any instant, and CLEAR put every element
at it; the derived flags are then 0 and STATUS reads 0. (`agenda`, the model's own field, loses the reset event alone;
nothing is said of the model's field `rdata`: log entries 1 and 3.) -/
def Obligations.ResetEventSetsEveryElement : Prop :=
  (State.reset.phase = .idle ∧ State.reset.errcode = 0#4 ∧ State.reset.perr = false ∧ State.reset.len = 0#32 ∧
    State.reset.icnt = 0#32 ∧ State.reset.ocnt = 0#32 ∧ State.reset.ifill = 0 ∧ State.reset.orem = 0 ∧
    State.reset.prev = #v[0, 0, 0, 0, 0, 0, 0, 0, 0, 0, 0, 0, 0, 0, 0, 0] ∧
    State.reset.ibuf = #v[0, 0, 0, 0, 0, 0, 0, 0, 0, 0, 0, 0, 0, 0, 0, 0] ∧
    State.reset.obuf = #v[0, 0, 0, 0, 0, 0, 0, 0, 0, 0, 0, 0, 0, 0, 0, 0]) ∧
  State.reset.irdy = false ∧ State.reset.ordy = false ∧ State.reset.busy = false ∧
  State.reset.statusWord = 0x00000000#32 ∧
  (∀ (s : State) (rest : List Event), s.agenda = .reset :: rest →
    ∃ r, step s = .next { State.reset with agenda := rest, rdata := r }) ∧
  (∀ s : State, ∃ r, exec .clear s = .next { State.reset with agenda := s.agenda, rdata := r })

/-- Rule R141: InvalidLength is raised before anything else happens: STATE and ERRCODE change, PERR and LEN keep their
values, every other element is zero, no block step is enabled, and GETLEN reads back the refused length. -/
def Obligations.InvalidLengthIsPrecise : Prop :=
  ∀ s : State, s.Inv → s.phase = .idle → s.len.toNat = 0 ∨ s.len.toNat % 16 ≠ 0 →
    ∃ t : State, exec .start s = .next t ∧
      t = { phase := .err, errcode := 1#4, perr := s.perr, len := s.len, icnt := 0#32, ocnt := 0#32, ifill := 0,
            orem := 0, prev := zeroBlock, ibuf := zeroBlock, obuf := zeroBlock, rdata := t.rdata, agenda := s.agenda } ∧
      t.busy = false ∧ exec .getlen t = .next { t with rdata := some s.len }

/-- Rule R147 and rule R146: no events but CLEAR and reset lead out of ERR; until then no block step is enabled, every
POP returns 0, and nothing of the engine but PERR changes. -/
def Obligations.ErrLeftOnlyByClearOrReset : Prop :=
  ∀ (s : State) (es : List Event), s.Inv → s.phase = .err →
    (∀ e ∈ es, e ≠ .reset ∧ e.instr? ≠ some .clear) →
    s.performAll es = { s with perr := (s.performAll es).perr, rdata := (s.performAll es).rdata,
                               agenda := (s.performAll es).agenda } ∧
    (s.performAll es).busy = false ∧ (∀ b ∈ poppedBytes s es, b = 0x00#8)

/-- Rule R142: a violating transaction sets PERR, answers 0 if it is a read, and does nothing else; a transaction that
is none of the listed causes leaves PERR as it is, but for CLEAR, which clears it, as reset does; row 4 in the rule's own words. -/
def Obligations.ViolationsSetPerrAndNothingElse : Prop :=
  (∀ (i : Instr) (s : State), violates s i = true →
    ∃ t : State, exec i s = .next t ∧ t = { s with perr := true, rdata := t.rdata } ∧
      (isRead i = true → t.rdata = some 0#32)) ∧
  (∀ (i : Instr) (s : State), violates s i = false → i ≠ .clear →
    ∃ t : State, exec i s = .next t ∧ t.perr = s.perr) ∧
  (∀ s : State, ∃ t : State, exec .clear s = .next t ∧ t.perr = false) ∧
  (∀ s : State, s.resetEvent.perr = false) ∧ (∀ s : State, (s.engineTurn engineConfig).perr = s.perr) ∧
  (∀ (b : Byte) (s : State), s.Inv →
    (violates s (.push b) = true ↔ s.phase ≠ .run ∨ s.ifill.val = 16 ∨ s.icnt = s.len))

/-! ### The state machine and the invariants -/

/-- Rule R71: the whole table of STATE, for transactions, the block step and reset. -/
def Obligations.StateChangesAsTheTableSays : Prop :=
  (∀ (i : Instr) (s : State), s.Inv → ∃ t : State, exec i s = .next t ∧ t.phase = stateTable s i ∧
    (violates s i = true → t = { s with perr := true, rdata := t.rdata })) ∧
  (∀ s : State, (s.engineTurn engineConfig).phase = s.phase ∧
    (s.phase ≠ .run → s.engineTurn engineConfig = s)) ∧
  (∀ s : State, s.resetEvent.phase = .idle) ∧
  (∀ s : State, s.Inv → s.phase ≠ .run → s.irdy = false ∧ s.ordy = false ∧ s.busy = false)

/-- Rule R27, items a to h: every step of the machine keeps them, from every state that has them. -/
def Obligations.EveryStepKeepsTheInvariants : Prop :=
  ∀ s t : State, s.Inv → step s = .next t → t.Inv

/-- The reset state has the invariants of rule R27, and its streams are empty. -/
def Obligations.ResetHasTheInvariants : Prop :=
  State.reset.Inv ∧ StreamInv State.reset .empty

/-- Rule R35, with items d and i of rule R27: every step keeps the stream law, from every state and streams that have
it: len(C) = ICNT, len(D) = OCNT, D is the first OCNT bytes of the plaintext of the blocks stepped so far, OBUF and IBUF
hold the bytes in between, PREV is the chaining value. -/
def Obligations.EveryStepKeepsTheStreamLaw : Prop :=
  ∀ (s t : State) (h : Streams), StreamInv s h → step s = .next t → StreamInv t (h.after s)

/-- Rule R18: the values of STATUS a host can meet, and that 0x001 is not among them. -/
def Obligations.StatusValuesAHostCanMeet : Prop :=
  ∀ s : State, s.Inv →
    (s.phase = .idle → s.statusWord = if s.perr then 0x020#32 else 0x000#32) ∧
    (s.phase = .err → s.statusWord = if s.perr then 0x123#32 else 0x103#32) ∧
    (s.phase = .done → s.statusWord = if s.perr then 0x022#32 else 0x002#32) ∧
    (s.phase = .run → ∃ v ∈ [0x005#32, 0x00D#32, 0x009#32, 0x011#32],
      s.statusWord = if s.perr then v + 0x020#32 else v)

/-- Rule R39 item d: a ready flag that is up stays up through every event but the host's own use of it, CLEAR and
reset. -/
def Obligations.ReadyFlagsAreStable : Prop :=
  (∀ (s : State) (e : Event), s.Inv → s.irdy = true → e ≠ .reset → e.instr? ≠ some .clear →
    (∀ b, e.instr? ≠ some (.push b)) → (s.perform e).irdy = true) ∧
  (∀ (s : State) (e : Event), s.Inv → s.ordy = true → e ≠ .reset → e.instr? ≠ some .clear →
    e.instr? ≠ some .pop → (s.perform e).ordy = true)

/-- Rule R39 item e: with ORDY = 1 the next OREM reads of DOUT all deliver, with IRDY = 1 the next 16 - IFILL writes of
DIN are all accepted, with no STATUS read between. -/
def Obligations.BurstsToTheEndOfTheBlock : Prop :=
  (∀ (s : State) (n : Nat), s.Inv → s.ordy = true → n ≤ s.orem.val →
    (s.performAll (List.replicate n (.host (encode .pop)))).perr = s.perr ∧
    (s.performAll (List.replicate n (.host (encode .pop)))).ocnt.toNat = s.ocnt.toNat + n ∧
    poppedBytes s (List.replicate n (.host (encode .pop))) =
      (s.obuf.toList.drop (16 - s.orem.val)).take n) ∧
  (∀ (s : State) (bs : List Byte), s.Inv → s.irdy = true → bs.length ≤ 16 - s.ifill.val →
    (s.performAll (bs.map fun b => .host (encode (.push b)))).perr = s.perr ∧
    (s.performAll (bs.map fun b => .host (encode (.push b)))).icnt.toNat = s.icnt.toNat + bs.length)

/-- Rule R169: a step enters DONE only by the POP of byte LEN-1, and then OCNT = ICNT = LEN; it enters ERR only by START
in IDLE with a bad length, with no byte moved. -/
def Obligations.RunEndsInDoneOrErr : Prop :=
  ∀ s t : State, s.Inv → step s = .next t →
    (t.phase = .done → s.phase ≠ .done →
      (∃ tw rest, s.agenda = .host tw :: rest ∧ decode tw = .pop) ∧ s.phase = .run ∧
      s.ocnt.toNat + 1 = s.len.toNat ∧ t.ocnt = t.len ∧ t.icnt = t.len) ∧
    (t.phase = .err → s.phase ≠ .err →
      (∃ tw rest, s.agenda = .host tw :: rest ∧ decode tw = .start) ∧ s.phase = .idle ∧
      badLength s.len = true ∧ t.icnt = 0#32 ∧ t.ocnt = 0#32)

/-! ### The block step and the engine's turn -/

/-- Rule R80, whole: ENGINE's turn with BUSY = 1 is the block step, byte by byte as the rule writes it; IBUF and every
other element are unchanged; the flags after it; with BUSY = 0 nothing is enabled and the turn changes nothing; however
many events go between, the step is still what ENGINE's first turn does unless CLEAR or reset removed the condition; the
rule's example. (`agenda` is the model's own field: log entry 1.) -/
def Obligations.BlockStepDecryptsOneBlock : Prop :=
  (∀ s : State, s.phase = .run → s.ifill.val = 16 → s.orem.val = 0 →
    ∃ t : State, s.engineTurn engineConfig = t ∧
      t = { s with obuf := t.obuf, prev := s.ibuf, ifill := 0, orem := 16 } ∧
      (∀ i, i < 16 → byteAt t.obuf i = byteAt (invCipher engineConfig.key s.ibuf) i ^^^ byteAt s.prev i) ∧
      t.busy = false ∧ t.ordy = true ∧ (t.irdy = true ↔ s.icnt.toNat < s.len.toNat)) ∧
  (∀ s : State, ¬ (s.phase = .run ∧ s.ifill.val = 16 ∧ s.orem.val = 0) → s.engineTurn engineConfig = s) ∧
  (∀ (s : State) (es : List Event), s.busy = true →
    (∀ e ∈ es, e ≠ .engine ∧ e ≠ .reset ∧ e.instr? ≠ some .clear) →
    (s.performAll es).busy = true ∧
    s.performAll (es ++ [.engine]) = { (s.performAll es).blkStep engineConfig with agenda := [] }) ∧
  (let ibuf : Block := #v[0x5a#8, 0x34#8, 0x9e#8, 0x14#8, 0x3a#8, 0xa8#8, 0xe7#8, 0x95#8, 0x7a#8, 0x71#8, 0xd5#8, 0x98#8,
                          0x4b#8, 0x75#8, 0xf1#8, 0xbf#8]
   invCipher engineConfig.key ibuf =
      #v[0x52#8, 0x00#8, 0x64#8, 0x00#8, 0x04#8, 0x24#8, 0x3d#8, 0x43#8, 0x0b#8, 0x67#8, 0x16#8, 0xf2#8, 0x6f#8, 0xa8#8,
         0xd7#8, 0x04#8] ∧
    (State.blkStep engineConfig { startedWith 16#32 with ibuf := ibuf, ifill := 16 }).obuf =
      #v[0x53#8, 0x00#8, 0x65#8, 0x00#8, 0x63#8, 0x00#8, 0x72#8, 0x00#8, 0x65#8, 0x00#8, 0x74#8, 0x00#8, 0x31#8, 0x00#8,
         0x00#8, 0x00#8])

/-- The step at an ENGINE event, and with no event to come, is ENGINE's turn; at a reset event it is the reset. (The
agenda is the model's way to say who moves next, and an empty one meaning ENGINE's turn is its choice: log entries 1
and 2.) -/
def Obligations.StepRunsEngineAndReset : Prop :=
  (∀ (s : State) (rest : List Event), s.agenda = .engine :: rest →
    step s = .next (State.engineTurn engineConfig { s with agenda := rest })) ∧
  (∀ (s : State) (rest : List Event), s.agenda = .reset :: rest →
    step s = .next (State.resetEvent { s with agenda := rest })) ∧
  (∀ s : State, s.agenda = [] → step s = .next (s.engineTurn engineConfig))

/-- A read leaves its value on the port and a write leaves nothing there (rule R30: "for a read, one rdata in answer";
that the model's field `rdata` is `none` after a write is its choice: log entry 3). -/
def Obligations.ReadsAnswerAndWritesDoNot : Prop :=
  ∀ (i : Instr) (s t : State), exec i s = .next t → t.rdata.isSome = isRead i

/-- Rule R166: once BUSY has risen it stays up through every event but a turn of ENGINE, CLEAR and reset: no other
transaction can disable the block step. -/
def Obligations.BusyLastsUntilTheBlockStep : Prop :=
  ∀ (s : State) (es : List Event), s.busy = true →
    (∀ e ∈ es, e ≠ .engine ∧ e ≠ .reset ∧ e.instr? ≠ some .clear) → (s.performAll es).busy = true

/-- Rule R166: WAITO issued while a block step is enabled ends, on every fair schedule. -/
def Obligations.WaitoEndsUnderFairness : Prop :=
  ∀ (s : State) (sched : Nat → Turn), s.busy = true → FairSchedule sched →
    ∃ n, (Script.run sched ⟨Pseudo.waito.expand, []⟩ s n).1.ops = []

/-- Rules R54, R66, R67 and R80: PUSHBLK, WAITO, POPBLK on an engine that waits for a block returns, on every fair
schedule, after the polls of WAITO, the sixteen bytes of InvCipher(KEY, block) xor PREV in order. -/
def Obligations.OneBlockThroughTheStreams : Prop :=
  ∀ (s : State) (b : Block) (sched : Nat → Turn), s.Inv → s.irdy = true → s.ifill.val = 0 → s.orem.val = 0 →
    FairSchedule sched →
    ∃ n polls, (Script.run sched
        ⟨(Pseudo.pushblk b).expand ++ Pseudo.waito.expand ++ Pseudo.popblk.expand, []⟩ s n).1 =
      ⟨[], polls ++ (xorBlock (invCipher engineConfig.key b) s.prev).toList.map fun x => x.setWidth 32⟩

/-! ### Whole messages -/

/-- Rule R85: from reset, SETLEN n and START, then any interleaving of PUSH, POP, reads and block steps that ends in
DONE with no protocol violation: the n bytes popped are CBCDecrypt(KEY, IV, the n bytes pushed); and no byte is popped
before its whole block was pushed. -/
def Obligations.WholeMessageIsDecrypted : Prop :=
  ∀ (n : Word) (es : List Event), 0 < n.toNat → n.toNat % 16 = 0 → (∀ e ∈ es, e.inMessage = true) →
    ((startedWith n).performAll es).phase = .done → ((startedWith n).performAll es).perr = false →
    (pushedBytes es).length = n.toNat ∧
    poppedBytes (startedWith n) es = cbcDecrypt engineConfig.key engineConfig.iv (pushedBytes es) ∧
    ∀ es₁ es₂, es = es₁ ++ es₂ →
      (poppedBytes (startedWith n) es₁).length ≤ 16 * ((pushedBytes es₁).length / 16)

/-- Rule R86: the plaintext of a message depends on that message alone: two engines in IDLE with the same LEN, whatever
else they hold, deliver the same bytes for the same events after START. -/
def Obligations.MessagesAreIndependent : Prop :=
  ∀ (s t : State) (es : List Event), s.phase = .idle → t.phase = .idle → s.len = t.len → badLength s.len = false →
    (∀ e ∈ es, e.inMessage = true) →
    poppedBytes (s.perform (.host (encode .start))) es = poppedBytes (t.perform (.host (encode .start))) es

/-- Rules R26 and R168: what is left in PREV, IBUF and OBUF outside the valid bytes can never be seen: two states that
differ there alone answer every later sequence of events alike, and go on differing there alone. -/
def Obligations.ResidueIsInvisible : Prop :=
  ∀ (s t : State) (es : List Event), SameToHost s t →
    s.answers es = t.answers es ∧ SameToHost (s.performAll es) (t.performAll es)

/-- Rule R127: the driver, called with a ciphertext below 2^32 bytes on an engine in any state, returns under every fair
schedule without reset, and what it returns is Err(InvalidLength) or Ok(CBCDecrypt(KEY, IV, C)); followed by
Utf16leDecode and TrimNul it is the contract Decrypt. -/
def Obligations.DriverComputesTheContract : Prop :=
  ∀ (c : List Byte) (s : State) (sched : Nat → Turn), c.length < 2 ^ 32 → FairSchedule sched →
    (∃ n, ∀ m, n ≤ m → (System.run sched ⟨.init c, s⟩ m).returned (driverAnswer c)) ∧
    decrypt c =
      match driverAnswer c with
      | .ok p =>
        match utf16leDecode p with
        | .ok t => .ok (trimNul t)
        | .err e => .err e
      | _ => .err .invalidLength

/-- Rules R126 and R142: from its first CLEAR on, the driver never causes a protocol violation, whatever ciphertext it
is given and whenever the block steps happen. -/
def Obligations.DriverNeverViolatesTheProtocol : Prop :=
  ∀ (c : List Byte) (s : State) (sched : Nat → Turn) (n : Nat), c.length < 2 ^ 32 → (∀ m, sched m ≠ .reset) →
    (System.run sched ⟨.init c, s⟩ n).driver.pc ≠ .firstClear →
    (System.run sched ⟨.init c, s⟩ n).engine.perr = false

/-- Rules R126 and R161: whatever resets fall into its run, a plaintext that the driver returns is the right one. -/
def Obligations.DriverOkIsAlwaysRight : Prop :=
  ∀ (c p : List Byte) (s : State) (sched : Nat → Turn) (n : Nat),
    (System.run sched ⟨.init c, s⟩ n).returned (.ok p) →
    c.length % 16 = 0 ∧ 0 < c.length ∧ p = cbcDecrypt engineConfig.key engineConfig.iv c

/-! ### Cipher block chaining -/

/-- Rule R82, byte by byte, for every key and initialisation vector; with it the length (rule R83). -/
def Obligations.CbcDecryptByteByByte : Prop :=
  ∀ (k v : Block) (c : List Byte) (n : Nat), c.length = 16 * n →
    (cbcDecrypt k v c).length = c.length ∧
    ∀ b i, b < n → i < 16 →
      (cbcDecrypt k v c).getD (16 * b + i) 0#8 =
        byteAt (invCipher k (blockOfList (c.drop (16 * b)))) i ^^^
          (if b = 0 then byteAt v i else c.getD (16 * (b - 1) + i) 0#8)

/-- Rule R88: decrypting a CBC encryption gives the plaintext back, for every key, vector and whole-block plaintext. -/
def Obligations.CbcRoundTrip : Prop :=
  ∀ (k v : Block) (p : List Byte), p.length % 16 = 0 → cbcDecrypt k v (cbcEncrypt k v p) = p

/-- Rule R89: a ciphertext damaged in block b alone: every block but b and b+1 of the plaintext is as before, and block
b+1 differs in exactly the bit positions in which the damaged block differs; block b is the inverse cipher of the damaged
block with the block before it. -/
def Obligations.CbcDamageIsLocal : Prop :=
  ∀ (k v : Block) (c c' : List Byte) (n b : Nat), c.length = 16 * n → c'.length = 16 * n → b < n →
    (∀ j, j < 16 * b ∨ 16 * b + 16 ≤ j → c'.getD j 0#8 = c.getD j 0#8) →
    (∀ j, j < 16 * b ∨ 16 * b + 32 ≤ j → (cbcDecrypt k v c').getD j 0#8 = (cbcDecrypt k v c).getD j 0#8) ∧
    (∀ i, i < 16 →
      (cbcDecrypt k v c').getD (16 * b + i) 0#8 =
        byteAt (invCipher k (blockOfList (c'.drop (16 * b)))) i ^^^
          (if b = 0 then byteAt v i else c.getD (16 * (b - 1) + i) 0#8)) ∧
    (b + 1 < n → ∀ i, i < 16 →
      (cbcDecrypt k v c').getD (16 * (b + 1) + i) 0#8 =
        (cbcDecrypt k v c).getD (16 * (b + 1) + i) 0#8 ^^^
          (c.getD (16 * b + i) 0#8 ^^^ c'.getD (16 * b + i) 0#8))

/-! ### The cipher -/

/-- Rules R92 and R93: the S-box table is the affine map of the field inverse, the map being the rule's bit by bit and
by rotations; the other table is its inverse; the values the rules name. -/
def Obligations.SBoxTablesAreRight : Prop :=
  (∀ a : Byte, ∃ b : Byte, isFieldInverse a b ∧ sBox a = affine b) ∧
  (∀ (b : Byte) (i : Nat), i < 8 → (affine b).getLsbD i =
    (b.getLsbD i ^^ b.getLsbD ((i + 4) % 8) ^^ b.getLsbD ((i + 5) % 8) ^^ b.getLsbD ((i + 6) % 8) ^^
      b.getLsbD ((i + 7) % 8) ^^ (0x63#8).getLsbD i)) ∧
  (∀ a : Byte, invSBox (sBox a) = a) ∧ (∀ a : Byte, sBox (invSBox a) = a) ∧
  sBox 0x00#8 = 0x63#8 ∧ sBox 0x53#8 = 0xed#8 ∧ sBox 0xff#8 = 0x16#8 ∧
  invSBox 0x00#8 = 0x52#8 ∧ invSBox 0x63#8 = 0x00#8 ∧ invSBox 0xed#8 = 0x53#8

/-- Rule R91: the laws of the multiplication, the products by the cipher's constants, and the rule's checks. -/
def Obligations.FieldMultiplicationLaws : Prop :=
  (∀ a b : Byte, gmul a b = gmul b a) ∧ (∀ a b c : Byte, gmul (gmul a b) c = gmul a (gmul b c)) ∧
  (∀ a b c : Byte, gmul a (b ^^^ c) = gmul a b ^^^ gmul a c) ∧ (∀ a : Byte, gmul a 0x01#8 = a) ∧
  (∀ a : Byte, gmul a 0x02#8 = xtime a ∧ gmul a 0x03#8 = xtime a ^^^ a ∧
    gmul a 0x09#8 = xtime (xtime (xtime a)) ^^^ a ∧
    gmul a 0x0B#8 = xtime (xtime (xtime a)) ^^^ xtime a ^^^ a ∧
    gmul a 0x0D#8 = xtime (xtime (xtime a)) ^^^ xtime (xtime a) ^^^ a ∧
    gmul a 0x0E#8 = xtime (xtime (xtime a)) ^^^ xtime (xtime a) ^^^ xtime a) ∧
  gmul 0x57#8 0x83#8 = 0xC1#8 ∧ gmul 0x57#8 0x13#8 = 0xFE#8 ∧ xtime 0x80#8 = 0x1B#8

/-- Rules R101 and R111: AddRoundKey is its own inverse, and each forward transformation and its Inv counterpart undo
each other. -/
def Obligations.TransformationsAreInverse : Prop :=
  ∀ s rk : Block, addRoundKey (addRoundKey s rk) rk = s ∧
    invShiftRows (shiftRows s) = s ∧ shiftRows (invShiftRows s) = s ∧
    invSubBytes (subBytes s) = s ∧ subBytes (invSubBytes s) = s ∧
    invMixColumns (mixColumns s) = s ∧ mixColumns (invMixColumns s) = s

/-- Rule R105: RotWord, SubWord, Rcon, the words of the key schedule, the round keys, and that RK[0] is the key. -/
def Obligations.KeyScheduleRecurrence : Prop :=
  (∀ a0 a1 a2 a3 : Byte, rotWord #v[a0, a1, a2, a3] = #v[a1, a2, a3, a0] ∧
    subWord #v[a0, a1, a2, a3] = #v[sBox a0, sBox a1, sBox a2, sBox a3]) ∧
  ((List.range 10).map fun j => rcon (j + 1)) =
    [#v[0x01#8, 0, 0, 0], #v[0x02#8, 0, 0, 0], #v[0x04#8, 0, 0, 0], #v[0x08#8, 0, 0, 0], #v[0x10#8, 0, 0, 0],
     #v[0x20#8, 0, 0, 0], #v[0x40#8, 0, 0, 0], #v[0x80#8, 0, 0, 0], #v[0x1b#8, 0, 0, 0], #v[0x36#8, 0, 0, 0]] ∧
  ∀ k : Block, roundKey k 0 = k ∧
    (∀ j r c, j ≤ 10 → (hr : r < 4) → c < 4 → byteAt (roundKey k j) (r + 4 * c) = (keyWord k (4 * j + c))[r]) ∧
    (∀ i, i < 4 → keyWord k i = #v[byteAt k (4 * i), byteAt k (4 * i + 1), byteAt k (4 * i + 2), byteAt k (4 * i + 3)]) ∧
    (∀ i, 4 ≤ i → i < 44 → i % 4 = 0 →
      keyWord k i = xorKeyWord (xorKeyWord (keyWord k (i - 4)) (subWord (rotWord (keyWord k (i - 1))))) (rcon (i / 4))) ∧
    (∀ i, 4 ≤ i → i < 44 → i % 4 ≠ 0 → keyWord k i = xorKeyWord (keyWord k (i - 4)) (keyWord k (i - 1)))

/-- Rule R106, whole: the eleven round keys of this engine's KEY. -/
def Obligations.RoundKeysOfThisKey : Prop :=
  (List.range 11).map (roundKey engineConfig.key) =
    [#v[0x06#8, 0x02#8, 0x00#8, 0x00#8, 0x00#8, 0xa4#8, 0x00#8, 0x00#8, 0x52#8, 0x53#8, 0x41#8, 0x31#8, 0x00#8, 0x04#8,
       0x00#8, 0x00#8],
     #v[0xf5#8, 0x61#8, 0x63#8, 0x63#8, 0xf5#8, 0xc5#8, 0x63#8, 0x63#8, 0xa7#8, 0x96#8, 0x22#8, 0x52#8, 0xa7#8, 0x92#8,
       0x22#8, 0x52#8],
     #v[0xb8#8, 0xf2#8, 0x63#8, 0x3f#8, 0x4d#8, 0x37#8, 0x00#8, 0x5c#8, 0xea#8, 0xa1#8, 0x22#8, 0x0e#8, 0x4d#8, 0x33#8,
       0x00#8, 0x5c#8],
     #v[0x7f#8, 0x91#8, 0x29#8, 0xdc#8, 0x32#8, 0xa6#8, 0x29#8, 0x80#8, 0xd8#8, 0x07#8, 0x0b#8, 0x8e#8, 0x95#8, 0x34#8,
       0x0b#8, 0xd2#8],
     #v[0x6f#8, 0xba#8, 0x9c#8, 0xf6#8, 0x5d#8, 0x1c#8, 0xb5#8, 0x76#8, 0x85#8, 0x1b#8, 0xbe#8, 0xf8#8, 0x10#8, 0x2f#8,
       0xb5#8, 0x2a#8],
     #v[0x6a#8, 0x6f#8, 0x79#8, 0x3c#8, 0x37#8, 0x73#8, 0xcc#8, 0x4a#8, 0xb2#8, 0x68#8, 0x72#8, 0xb2#8, 0xa2#8, 0x47#8,
       0xc7#8, 0x98#8],
     #v[0xea#8, 0xa9#8, 0x3f#8, 0x06#8, 0xdd#8, 0xda#8, 0xf3#8, 0x4c#8, 0x6f#8, 0xb2#8, 0x81#8, 0xfe#8, 0xcd#8, 0xf5#8,
       0x46#8, 0x66#8],
     #v[0x4c#8, 0xf3#8, 0x0c#8, 0xbb#8, 0x91#8, 0x29#8, 0xff#8, 0xf7#8, 0xfe#8, 0x9b#8, 0x7e#8, 0x09#8, 0x33#8, 0x6e#8,
       0x38#8, 0x6f#8],
     #v[0x53#8, 0xf4#8, 0xa4#8, 0x78#8, 0xc2#8, 0xdd#8, 0x5b#8, 0x8f#8, 0x3c#8, 0x46#8, 0x25#8, 0x86#8, 0x0f#8, 0x28#8,
       0x1d#8, 0xe9#8],
     #v[0x7c#8, 0x50#8, 0xba#8, 0x0e#8, 0xbe#8, 0x8d#8, 0xe1#8, 0x81#8, 0x82#8, 0xcb#8, 0xc4#8, 0x07#8, 0x8d#8, 0xe3#8,
       0xd9#8, 0xee#8],
     #v[0x5b#8, 0x65#8, 0x92#8, 0x53#8, 0xe5#8, 0xe8#8, 0x73#8, 0xd2#8, 0x67#8, 0x23#8, 0xb7#8, 0xd5#8, 0xea#8, 0xc0#8,
       0x6e#8, 0x3b#8]]

/-- The examples of rules R110 and R112: FIPS 197 C.1 in both directions, this KEY on the zero block, FIPS 197 B. -/
def Obligations.PublishedCipherExamples : Prop :=
  (let k : Block := blockOf fun i => BitVec.ofNat 8 i.val
   let p : Block := blockOf fun i => BitVec.ofNat 8 (0x11 * i.val)
   let c : Block := #v[0x69#8, 0xc4#8, 0xe0#8, 0xd8#8, 0x6a#8, 0x7b#8, 0x04#8, 0x30#8, 0xd8#8, 0xcd#8, 0xb7#8, 0x80#8, 0x70#8, 0xb4#8,
         0xc5#8, 0x5a#8]
   invCipher k c = p ∧ cipher k p = c) ∧
  invCipher engineConfig.key zeroBlock =
    #v[0x92#8, 0x75#8, 0x85#8, 0xf8#8, 0x26#8, 0x9f#8, 0x9b#8, 0xee#8, 0x41#8, 0xe6#8, 0xd9#8, 0xe5#8, 0x94#8, 0x14#8,
       0xae#8, 0xe3#8] ∧
  cipher #v[0x2b#8, 0x7e#8, 0x15#8, 0x16#8, 0x28#8, 0xae#8, 0xd2#8, 0xa6#8, 0xab#8, 0xf7#8, 0x15#8, 0x88#8, 0x09#8, 0xcf#8,
           0x4f#8, 0x3c#8]
      #v[0x32#8, 0x43#8, 0xf6#8, 0xa8#8, 0x88#8, 0x5a#8, 0x30#8, 0x8d#8, 0x31#8, 0x31#8, 0x98#8, 0xa2#8, 0xe0#8, 0x37#8,
           0x07#8, 0x34#8] =
    #v[0x39#8, 0x25#8, 0x84#8, 0x1d#8, 0x02#8, 0xdc#8, 0x09#8, 0xfb#8, 0xdc#8, 0x11#8, 0x85#8, 0x97#8, 0x19#8, 0x6a#8,
       0x0b#8, 0x32#8]

/-- Rule R113: the cipher and the inverse cipher undo each other, for every key and block; each is a permutation of the blocks. -/
def Obligations.InvCipherInvertsCipher : Prop :=
  ∀ k : Block, (∀ b : Block, invCipher k (cipher k b) = b) ∧ (∀ b : Block, cipher k (invCipher k b) = b) ∧
    Function.Bijective (cipher k) ∧ Function.Bijective (invCipher k)

/-! ### The software layer -/

/-- Rules R120 and R123: Utf16leDecode succeeds with S on exactly the bytes that Utf16leEncode gives for S; on every
other byte sequence it fails with DecodeError. -/
def Obligations.Utf16DecodeInvertsEncode : Prop :=
  (∀ (b : List Byte) (t : Text), utf16leDecode b = .ok t ↔ utf16leEncode t = b) ∧
  (∀ (b : List Byte), (∀ t : Text, utf16leEncode t ≠ b) → utf16leDecode b = .err .decodeError)

/-- Rule R120: each of the four causes of DecodeError, after any well-formed text. -/
def Obligations.DecodeErrorCauses : Prop :=
  (∀ b : List Byte, b.length % 2 ≠ 0 → utf16leDecode b = .err .decodeError) ∧
  (∀ (t : Text) (u : Nat) (rest : List Byte), isLow u = true →
    utf16leDecode (utf16leEncode t ++ unitBytes u ++ rest) = .err .decodeError) ∧
  (∀ (t : Text) (u v : Nat) (rest : List Byte), isHigh u = true → v < 0x10000 → isLow v = false →
    utf16leDecode (utf16leEncode t ++ unitBytes u ++ unitBytes v ++ rest) = .err .decodeError) ∧
  (∀ (t : Text) (u : Nat), isHigh u = true → utf16leDecode (utf16leEncode t ++ unitBytes u) = .err .decodeError)

/-- Rule R122: TrimNul removes NULs from the end and nothing else, and leaves no NUL there. -/
def Obligations.TrimNulRemovesTrailingNuls : Prop :=
  ∀ t : Text, (∃ n, t = trimNul t ++ List.replicate n nul) ∧ (trimNul t).getLast? ≠ some nul

/-- Rule R124: InvalidLength on exactly the bad lengths; else DecodeError exactly when the plaintext does not decode, or
the trimmed text: no other outcome, for every KEY and IV. -/
def Obligations.DecryptHasThreeOutcomes : Prop :=
  ∀ (cfg : Config) (c : List Byte),
    (decryptWith cfg c = .err .invalidLength ↔ c.length = 0 ∨ c.length % 16 ≠ 0) ∧
    (¬ (c.length = 0 ∨ c.length % 16 ≠ 0) →
      (decryptWith cfg c = .err .decodeError ∧ utf16leDecode (cbcDecrypt cfg.key cfg.iv c) = .err .decodeError) ∨
      (∃ t, decryptWith cfg c = .ok (trimNul t) ∧ utf16leDecode (cbcDecrypt cfg.key cfg.iv c) = .ok t))

/-- Rule R128, whole: the round-trip law at the level of strings; whole blocks are not padded; the document's scenario,
from the string "Secret1" to the program's output. -/
def Obligations.StringRoundTrip : Prop :=
  (∀ t : Text, t.getLast? ≠ some nul → (utf16leEncode t).length ≤ 0xFFFFFFF0 →
    decrypt (cbcEncrypt engineConfig.key engineConfig.iv (padNul (utf16leEncode t))) = .ok t) ∧
  (∀ b : List Byte, b.length ≠ 0 → b.length % 16 = 0 → padNul b = b) ∧
  (let secret : Text := ['S', 'e', 'c', 'r', 'e', 't', '1']
   let lines : List Text :=
     (cbcEncrypt engineConfig.key engineConfig.iv (padNul (utf16leEncode secret))).map fun b => Nat.toDigits 10 b.toNat
   programEnd [[Char.ofNat 0x0A].intercalate lines] = .success secret)

/-- Rule R131: ParseArg succeeds exactly when every line is one or more digits of value at most 255, and gives those
values in order; the lines are the argument split at every newline; any other character makes it fail. -/
def Obligations.ParseArgIsStrict : Prop :=
  (∀ (a : Text) (b : List Byte), parseArg a = .ok b ↔
    List.Forall₂ (fun l v => l ≠ [] ∧ (∀ c ∈ l, isDecimal c = true) ∧ decimalValue l = v.toNat) (splitLines a) b) ∧
  (∀ a : Text, (splitLines a).length = a.countP (fun c => c.toNat == 0x0A) + 1 ∧
    [Char.ofNat 0x0A].intercalate (splitLines a) = a ∧ ∀ l ∈ splitLines a, Char.ofNat 0x0A ∉ l) ∧
  (∀ (a : Text) (c : Char), c ∈ a → isDecimal c = false → c.toNat ≠ 0x0A → parseArg a = .err .parseError)

/-- Rule R132, whole: the first of the four errors in the rule's order is the one reported; on success the prefix and the
credential go to standard output and the exit status is 0; on every failure the message of that error alone is printed
and the exit status is 1; two runs that print the same message failed with the same error (rule R133: "a distinguishing
message"). -/
def Obligations.ProgramEndsAsTheRuleSays : Prop :=
  (∀ args : List Text, args.length ≠ 1 → programEnd args = .failure .usageError) ∧
  (∀ a : Text, parseArg a = .err .parseError → programEnd [a] = .failure .parseError) ∧
  (∀ (a : Text) (c : List Byte), parseArg a = .ok c →
    (decrypt c = .err .invalidLength → programEnd [a] = .failure .invalidLength) ∧
    (decrypt c = .err .decodeError → programEnd [a] = .failure .decodeError) ∧
    (∀ t, decrypt c = .ok t → programEnd [a] = .success t ∧ (programEnd [a]).stream = .stdout ∧
      programMain [a] = (['F', 'o', 'u', 'n', 'd', ' ', 'p', 'a', 's', 's', 'w', 'o', 'r', 'd', ':', ' '] ++ t, 0))) ∧
  (∀ (args : List Text) (k : ErrorKind), programEnd args = .failure k → programMain args = (messageText k, 1)) ∧
  (∀ (args args' : List Text) (k k' : ErrorKind), programEnd args = .failure k → programEnd args' = .failure k' →
    (programMain args).1 = (programMain args').1 → k = k')
end

