-- ==== Sys2Proof/Laws/Blocks.lean ====
section
/-! SUPPORT. Reading the bytes of blocks that the shared operations build, and when two blocks are equal. -/

namespace Sys2Proof.Machine

theorem byteAt_eq_getElem (b : Block) (i : Nat) (h : i < 16) : byteAt b i = b[i] := by
  simp [byteAt, h]

theorem byteAt_of_ge (b : Block) (i : Nat) (h : 16 ≤ i) : byteAt b i = 0#8 := by
  have : ¬ i < 16 := by omega
  simp [byteAt, this]

/-- Two blocks with the same sixteen bytes are equal. -/
theorem block_ext (a b : Block) (h : ∀ i, i < 16 → byteAt a i = byteAt b i) : a = b := by
  apply Vector.ext
  intro i hi
  have := h i hi
  rwa [byteAt_eq_getElem a i hi, byteAt_eq_getElem b i hi] at this

theorem byteAt_setByte (b : Block) (i j : Nat) (v : Byte) (hi : i < 16) :
    byteAt (setByte b i v) j = if j = i then v else byteAt b j := by
  unfold byteAt setByte
  by_cases hj : j < 16
  · simp only [Vector.getElem?_eq_getElem hj, Option.getD_some, Vector.getElem_setIfInBounds hj]
    by_cases h : j = i
    · simp [h]
    · simp [h, Ne.symm h]
  · have : j ≠ i := by omega
    simp [hj, this]

theorem byteAt_blockOf (f : Fin 16 → Byte) (i : Nat) (h : i < 16) : byteAt (blockOf f) i = f ⟨i, h⟩ := by
  rw [byteAt_eq_getElem _ _ h]
  match i, h with
  | 0, _ | 1, _ | 2, _ | 3, _ | 4, _ | 5, _ | 6, _ | 7, _ => rfl
  | 8, _ | 9, _ | 10, _ | 11, _ | 12, _ | 13, _ | 14, _ | 15, _ => rfl
  | n + 16, h => omega

theorem byteAt_xorBlock (a b : Block) (i : Nat) (h : i < 16) :
    byteAt (xorBlock a b) i = byteAt a i ^^^ byteAt b i := by
  rw [xorBlock, byteAt_blockOf _ _ h, byteAt_eq_getElem a i h, byteAt_eq_getElem b i h]
  rfl

theorem byteAt_blockOfList (l : List Byte) (i : Nat) (h : i < 16) : byteAt (blockOfList l) i = l.getD i 0#8 := by
  rw [blockOfList, byteAt_blockOf _ _ h]

/-- The cell that `stateOf` puts at row r, column c (rule R100). -/
theorem cell_stateOf (f : Fin 4 → Fin 4 → Byte) (r c : Fin 4) : cell (stateOf f) r c = f r c := by
  match r, c with
  | 0, 0 | 0, 1 | 0, 2 | 0, 3 | 1, 0 | 1, 1 | 1, 2 | 1, 3 => rfl
  | 2, 0 | 2, 1 | 2, 2 | 2, 3 | 3, 0 | 3, 1 | 3, 2 | 3, 3 => rfl

/-- Two blocks with the same cells are equal. -/
theorem block_ext_cell (a b : Block) (h : ∀ r c : Fin 4, cell a r c = cell b r c) : a = b := by
  apply block_ext
  intro i hi
  have := h ⟨i % 4, Nat.mod_lt _ (by decide)⟩ ⟨i / 4, by omega⟩
  simpa [cell, Nat.mod_add_div] using this

end Sys2Proof.Machine
end

