-- ==== Sys2Proof/Laws/CommandLine.lean ====
section
/-! SUPPORT. What the command-line program prints and how it exits, by the way it ends. -/

namespace Sys2Proof.Machine

/-- Each error kind has a message of its own (rules R132, R133, D20). -/
@[simp] theorem messageText_inj (j k : ErrorKind) : messageText j = messageText k ↔ j = k :=
  ⟨(@Config.messages ⟨someMessages⟩).distinct j k, congrArg messageText⟩

/-- On success the prefix and the credential are printed, and the status is 0. -/
theorem programMain_success {args : List Text} {t : Text} (h : programEnd args = .success t) :
    programMain args = (foundPrefix ++ t, 0) := by
  simp [programMain, h, ProgramEnd.text, ProgramEnd.exitStatus]

/-- On failure the message of the kind, and nothing else, is printed, and the status is 1. -/
theorem programMain_failure {args : List Text} {k : ErrorKind} (h : programEnd args = .failure k) :
    programMain args = (messageText k, 1) := by
  simp [programMain, h, ProgramEnd.text, ProgramEnd.exitStatus]

end Sys2Proof.Machine
end

