-- ==== Sys2Proof/Laws/PerInstr.lean ====
section
/-! SUPPORT. One lemma for each constructor of Instr: the word of a well-formed instruction matches the row of
`spec/opcode_table.json` it stands for (`30_encoding.md` rule R49). -/

namespace Sys2Proof.Laws.EncodingRow

/-- The match of an instruction's row (rule R49). -/
def rowPattern : Instr → TWord
  | .start => 0x10000000001#41
  | .clear => 0x10000000002#41
  | .ctrlrsvd _ => 0x10000000000#41
  | .setlen _ => 0x10800000000#41
  | .push _ => 0x10C00000000#41
  | .stat => 0x00400000000#41
  | .getlen => 0x00800000000#41
  | .pop => 0x01000000000#41
  | .geticnt => 0x01400000000#41
  | .getocnt => 0x01800000000#41
  | .illegal _ _ => 0x00000000000#41

/-- The mask of an instruction's row (rule R49). -/
def rowMask : Instr → TWord
  | .start => 0x1FF000000FF#41
  | .clear => 0x1FF000000FF#41
  | .ctrlrsvd _ => 0x1FF00000000#41
  | .setlen _ => 0x1FF00000000#41
  | .push _ => 0x1FF00000000#41
  | .stat => 0x1FF00000000#41
  | .getlen => 0x1FF00000000#41
  | .pop => 0x1FF00000000#41
  | .geticnt => 0x1FF00000000#41
  | .getocnt => 0x1FF00000000#41
  | .illegal _ _ => 0x00000000000#41

/-- The word of a well-formed instruction matches its row. -/
def Statement (i : Instr) : Prop := i.wf = true → encode i &&& rowMask i = rowPattern i

/-- The mask of RW and ADDR has the bits from 32 up. -/
theorem rwAddrMask_bit : ∀ i, i < 41 → (0x1FF00000000#41).getLsbD i = decide (32 ≤ i) := by decide

/-- The mask of RW and ADDR keeps those of a packed word and clears its data. -/
theorem packTW_and_mask (d : Dir) (a : Offset) (v : Word) :
    packTW d a v &&& 0x1FF00000000#41 = packTW d a 0#32 := by
  apply BitVec.eq_of_getLsbD_eq
  intro i hi
  have hrw : i < 32 → (rwBit d).getLsbD i = false := by
    intro h
    have hz : ∀ j, j < 32 → ∀ d : Dir, (rwBit d).getLsbD j = false := by
      intro j hj d'; cases d' <;> revert j <;> decide
    exact hz i h d
  rw [BitVec.getLsbD_and, rwAddrMask_bit i hi]
  by_cases h32 : i < 32
  · simp [packTW, h32, hrw h32, -BitVec.getLsbD_eq_getElem]
  · simp [packTW, Nat.not_lt.mp h32, h32, -BitVec.getLsbD_eq_getElem]

theorem start : Statement .start := fun _ => by decide
theorem clear : Statement .clear := fun _ => by decide
theorem ctrlrsvd (cmd : Byte) : Statement (.ctrlrsvd cmd) := fun _ => by
  rw [encode, rowMask, rowPattern, packTW_and_mask]; decide
theorem setlen (lenval : Word) : Statement (.setlen lenval) := fun _ => by
  rw [encode, rowMask, rowPattern, packTW_and_mask]; decide
theorem push (byte : Byte) : Statement (.push byte) := fun _ => by
  rw [encode, rowMask, rowPattern, packTW_and_mask]; decide
theorem stat : Statement .stat := fun _ => by decide
theorem getlen : Statement .getlen := fun _ => by decide
theorem pop : Statement .pop := fun _ => by decide
theorem geticnt : Statement .geticnt := fun _ => by decide
theorem getocnt : Statement .getocnt := fun _ => by decide
theorem illegal (dir : Dir) (addr : Offset) : Statement (.illegal dir addr) := fun _ => by
  rw [rowMask, rowPattern, BitVec.and_zero]

end Sys2Proof.Laws.EncodingRow
end

