-- ==== Sys2Proof/Laws/Decode.lean ====
section
/-! SUPPORT. The fields of a packed word, and every word as the packing of its fields (`30_encoding.md` rule R46). -/

namespace Sys2Proof

theorem rwBit_bit : ∀ i, i < 41 → ∀ d, (rwBit d).getLsbD i = (decide (i = 40) && decide (d = Dir.write)) := by
  intro i hi d
  cases d <;> revert i <;> decide

/-- Each bit of a packed word: WDATA below 32, ADDR below 40, RW at 40. -/
theorem packTW_bit (d : Dir) (a : Offset) (v : Word) (i : Nat) (hi : i < 41) :
    (packTW d a v).getLsbD i =
      if i < 32 then v.getLsbD i else if i < 40 then a.getLsbD (i - 32) else decide (d = .write) := by
  have h32 : 32 ≤ i → v.getLsbD i = false := fun h => BitVec.getLsbD_of_ge _ _ h
  simp only [packTW, BitVec.getLsbD_or, BitVec.getLsbD_shiftLeft, BitVec.getLsbD_setWidth, rwBit_bit i hi]
  by_cases h1 : i < 32
  · have : i ≠ 40 := by omega
    simp [h1, hi, this, -BitVec.getLsbD_eq_getElem]
  · by_cases h2 : i < 40
    · have : i ≠ 40 := by omega
      have h41 : i - 32 < 41 := by omega
      simp [h1, h2, hi, this, h41, h32 (by omega), -BitVec.getLsbD_eq_getElem]
    · have : i = 40 := by omega
      subst this
      simp

theorem twDir_packTW (d : Dir) (a : Offset) (v : Word) : twDir (packTW d a v) = d := by
  rw [twDir, packTW_bit d a v 40 (by decide)]
  cases d <;> simp

theorem twAddr_packTW (d : Dir) (a : Offset) (v : Word) : twAddr (packTW d a v) = a := by
  apply BitVec.eq_of_getLsbD_eq
  intro i hi
  have h40 : 32 + i < 40 := by omega
  rw [twAddr, BitVec.getLsbD_extractLsb', packTW_bit d a v _ (by omega)]
  simp [hi, h40, -BitVec.getLsbD_eq_getElem]

theorem twData_packTW (d : Dir) (a : Offset) (v : Word) : twData (packTW d a v) = v := by
  apply BitVec.eq_of_getLsbD_eq
  intro i hi
  rw [twData, BitVec.getLsbD_extractLsb', packTW_bit d a v _ (by omega)]
  simp [hi, -BitVec.getLsbD_eq_getElem]

theorem packTW_fields (tw : TWord) : packTW (twDir tw) (twAddr tw) (twData tw) = tw := by
  apply BitVec.eq_of_getLsbD_eq
  intro i hi
  rw [packTW_bit _ _ _ i hi]
  by_cases h32 : i < 32
  · simp [h32, twData, -BitVec.getLsbD_eq_getElem]
  · by_cases h40 : i < 40
    · have h8 : i - 32 < 8 := by omega
      have hs : 32 + (i - 32) = i := by omega
      simp [h32, h40, twAddr, h8, hs, -BitVec.getLsbD_eq_getElem]
    · have he : i = 40 := by omega
      subst he
      cases h : tw.getLsbD 40 <;> simp [twDir, h, -BitVec.getLsbD_eq_getElem]

/-- Two words with the same fields are the same word. -/
theorem tw_ext (x y : TWord) (hd : twDir x = twDir y) (ha : twAddr x = twAddr y) (hw : twData x = twData y) :
    x = y := by
  rw [← packTW_fields x, ← packTW_fields y, hd, ha, hw]

theorem twLow_packTW (d : Dir) (a : Offset) (v : Word) : twLow (packTW d a v) = v.setWidth 8 := by
  apply BitVec.eq_of_getLsbD_eq
  intro i hi
  have h32 : i < 32 := by omega
  rw [twLow, BitVec.getLsbD_extractLsb', packTW_bit d a v _ (by omega)]
  simp [hi, h32, -BitVec.getLsbD_eq_getElem]

theorem twLow_eq (tw : TWord) : twLow tw = (twData tw).setWidth 8 := by
  rw [← packTW_fields tw, twLow_packTW, twData_packTW]

/-- The test of a row whose mask is RW and ADDR. -/
theorem rwAddr_test (tw : TWord) (d : Dir) (a : Offset) :
    tw &&& 0x1FF00000000#41 = packTW d a 0#32 ↔ twDir tw = d ∧ twAddr tw = a := by
  rw [← packTW_fields tw, Laws.EncodingRow.packTW_and_mask, twDir_packTW, twAddr_packTW]
  constructor
  · intro h
    have hd := congrArg twDir h
    have ha := congrArg twAddr h
    rw [twDir_packTW, twDir_packTW] at hd
    rw [twAddr_packTW, twAddr_packTW] at ha
    exact ⟨hd, ha⟩
  · rintro ⟨rfl, rfl⟩; rfl

/-- The mask of RW, ADDR and CMD has the bits below 8 and those from 32 up. -/
theorem cmdMask_bit : ∀ i, i < 41 → (0x1FF000000FF#41).getLsbD i = (decide (i < 8) || decide (32 ≤ i)) := by decide

/-- The mask of RW, ADDR and CMD keeps those of a packed word and clears the rest of its data. -/
theorem packTW_and_cmdMask (d : Dir) (a : Offset) (v : Word) :
    packTW d a v &&& 0x1FF000000FF#41 = packTW d a ((v.setWidth 8).setWidth 32) := by
  apply BitVec.eq_of_getLsbD_eq
  intro i hi
  rw [BitVec.getLsbD_and, cmdMask_bit i hi, packTW_bit _ _ _ i hi, packTW_bit _ _ _ i hi]
  by_cases h32 : i < 32
  · by_cases h8 : i < 8
    · simp [h32, h8, -BitVec.getLsbD_eq_getElem]
    · simp [h32, h8, -BitVec.getLsbD_eq_getElem]
  · simp [h32, Nat.not_lt.mp h32]

/-- The test of a row whose mask is RW, ADDR and CMD. -/
theorem cmd_test (tw : TWord) (d : Dir) (a : Offset) (c : Byte) :
    tw &&& 0x1FF000000FF#41 = packTW d a (c.setWidth 32) ↔ twDir tw = d ∧ twAddr tw = a ∧ twLow tw = c := by
  rw [← packTW_fields tw, packTW_and_cmdMask, twDir_packTW, twAddr_packTW, twLow_packTW]
  constructor
  · intro h
    have hd := congrArg twDir h
    have ha := congrArg twAddr h
    have hl := congrArg twLow h
    rw [twDir_packTW, twDir_packTW] at hd
    rw [twAddr_packTW, twAddr_packTW] at ha
    rw [twLow_packTW, twLow_packTW] at hl
    have hs : ∀ x : Byte, (x.setWidth 32).setWidth 8 = x := by decide +kernel
    rw [hs, hs] at hl
    exact ⟨hd, ha, hl⟩
  · rintro ⟨rfl, rfl, rfl⟩; rfl

/-- The decoder by the fields of the word: the rows of rule R49 in their order. -/
theorem decode_fields (tw : TWord) :
    decode tw =
      if twDir tw = .write ∧ twAddr tw = 0x00#8 ∧ twLow tw = 0x01#8 then .start
      else if twDir tw = .write ∧ twAddr tw = 0x00#8 ∧ twLow tw = 0x02#8 then .clear
      else if twDir tw = .write ∧ twAddr tw = 0x00#8 then .ctrlrsvd (twLow tw)
      else if twDir tw = .write ∧ twAddr tw = 0x08#8 then .setlen (twData tw)
      else if twDir tw = .write ∧ twAddr tw = 0x0C#8 then .push (twLow tw)
      else if twDir tw = .read ∧ twAddr tw = 0x04#8 then .stat
      else if twDir tw = .read ∧ twAddr tw = 0x08#8 then .getlen
      else if twDir tw = .read ∧ twAddr tw = 0x10#8 then .pop
      else if twDir tw = .read ∧ twAddr tw = 0x14#8 then .geticnt
      else if twDir tw = .read ∧ twAddr tw = 0x18#8 then .getocnt
      else .illegal (twDir tw) (twAddr tw) := by
  have c1 := cmd_test tw .write 0x00#8 0x01#8
  have c2 := cmd_test tw .write 0x00#8 0x02#8
  have w0 := rwAddr_test tw .write 0x00#8
  have w8 := rwAddr_test tw .write 0x08#8
  have wc := rwAddr_test tw .write 0x0C#8
  have r4 := rwAddr_test tw .read 0x04#8
  have r8 := rwAddr_test tw .read 0x08#8
  have r10 := rwAddr_test tw .read 0x10#8
  have r14 := rwAddr_test tw .read 0x14#8
  have r18 := rwAddr_test tw .read 0x18#8
  simp only [show packTW .write 0x00#8 ((0x01#8).setWidth 32) = 0x10000000001#41 by decide] at c1
  simp only [show packTW .write 0x00#8 ((0x02#8).setWidth 32) = 0x10000000002#41 by decide] at c2
  simp only [show packTW .write 0x00#8 0#32 = 0x10000000000#41 by decide] at w0
  simp only [show packTW .write 0x08#8 0#32 = 0x10800000000#41 by decide] at w8
  simp only [show packTW .write 0x0C#8 0#32 = 0x10C00000000#41 by decide] at wc
  simp only [show packTW .read 0x04#8 0#32 = 0x00400000000#41 by decide] at r4
  simp only [show packTW .read 0x08#8 0#32 = 0x00800000000#41 by decide] at r8
  simp only [show packTW .read 0x10#8 0#32 = 0x01000000000#41 by decide] at r10
  simp only [show packTW .read 0x14#8 0#32 = 0x01400000000#41 by decide] at r14
  simp only [show packTW .read 0x18#8 0#32 = 0x01800000000#41 by decide] at r18
  simp only [decode, decodeIn, opcodeRows, c1, c2, w0, w8, wc, r4, r8, r10, r14, r18, BitVec.and_zero, if_true]

end Sys2Proof
end

