-- ==== Sys2Proof/Laws/Flags.lean ====
section
/-! SUPPORT. The derived flags and the length test as propositions, and the fields of the STATUS word. -/

namespace Sys2Proof.Machine

theorem irdy_iff (s : State) :
    s.irdy = true ↔ s.phase = .run ∧ s.ifill.val < 16 ∧ s.icnt.toNat < s.len.toNat := by
  simp [State.irdy, and_assoc]

theorem ordy_iff (s : State) : s.ordy = true ↔ 0 < s.orem.val := by simp [State.ordy]

theorem busy_iff (s : State) :
    s.busy = true ↔ s.phase = .run ∧ s.ifill.val = 16 ∧ s.orem.val = 0 := by
  simp [State.busy, and_assoc]

theorem badLength_iff (n : Word) : badLength n = true ↔ n.toNat = 0 ∨ n.toNat % 16 ≠ 0 := by
  simp [badLength]

theorem badLength_false_iff (n : Word) : badLength n = false ↔ 0 < n.toNat ∧ n.toNat % 16 = 0 := by
  have h := badLength_iff n
  cases hb : badLength n <;> simp only [hb, true_iff, false_iff, Bool.false_eq_true, not_or, not_not,
    reduceCtorEq] at h ⊢ <;> omega

end Sys2Proof.Machine
end

