-- ==== Sys2Proof/Laws/State.lean ====
section
/-! SUPPORT. One lemma for each field of State under each named update of Machine/Ops.lean, all true by rfl. -/

namespace Sys2Proof.Machine

@[simp] theorem State.answer_phase (s : State) (v : Word) : (s.answer v).phase = s.phase := rfl
@[simp] theorem State.answer_errcode (s : State) (v : Word) : (s.answer v).errcode = s.errcode := rfl
@[simp] theorem State.answer_perr (s : State) (v : Word) : (s.answer v).perr = s.perr := rfl
@[simp] theorem State.answer_len (s : State) (v : Word) : (s.answer v).len = s.len := rfl
@[simp] theorem State.answer_icnt (s : State) (v : Word) : (s.answer v).icnt = s.icnt := rfl
@[simp] theorem State.answer_ocnt (s : State) (v : Word) : (s.answer v).ocnt = s.ocnt := rfl
@[simp] theorem State.answer_ifill (s : State) (v : Word) : (s.answer v).ifill = s.ifill := rfl
@[simp] theorem State.answer_orem (s : State) (v : Word) : (s.answer v).orem = s.orem := rfl
@[simp] theorem State.answer_prev (s : State) (v : Word) : (s.answer v).prev = s.prev := rfl
@[simp] theorem State.answer_ibuf (s : State) (v : Word) : (s.answer v).ibuf = s.ibuf := rfl
@[simp] theorem State.answer_obuf (s : State) (v : Word) : (s.answer v).obuf = s.obuf := rfl
@[simp] theorem State.answer_rdata (s : State) (v : Word) : (s.answer v).rdata = some v := rfl
@[simp] theorem State.answer_agenda (s : State) (v : Word) : (s.answer v).agenda = s.agenda := rfl

@[simp] theorem State.noAnswer_phase (s : State) : s.noAnswer.phase = s.phase := rfl
@[simp] theorem State.noAnswer_errcode (s : State) : s.noAnswer.errcode = s.errcode := rfl
@[simp] theorem State.noAnswer_perr (s : State) : s.noAnswer.perr = s.perr := rfl
@[simp] theorem State.noAnswer_len (s : State) : s.noAnswer.len = s.len := rfl
@[simp] theorem State.noAnswer_icnt (s : State) : s.noAnswer.icnt = s.icnt := rfl
@[simp] theorem State.noAnswer_ocnt (s : State) : s.noAnswer.ocnt = s.ocnt := rfl
@[simp] theorem State.noAnswer_ifill (s : State) : s.noAnswer.ifill = s.ifill := rfl
@[simp] theorem State.noAnswer_orem (s : State) : s.noAnswer.orem = s.orem := rfl
@[simp] theorem State.noAnswer_prev (s : State) : s.noAnswer.prev = s.prev := rfl
@[simp] theorem State.noAnswer_ibuf (s : State) : s.noAnswer.ibuf = s.ibuf := rfl
@[simp] theorem State.noAnswer_obuf (s : State) : s.noAnswer.obuf = s.obuf := rfl
@[simp] theorem State.noAnswer_rdata (s : State) : s.noAnswer.rdata = none := rfl
@[simp] theorem State.noAnswer_agenda (s : State) : s.noAnswer.agenda = s.agenda := rfl

@[simp] theorem State.flagPerr_phase (s : State) : s.flagPerr.phase = s.phase := rfl
@[simp] theorem State.flagPerr_errcode (s : State) : s.flagPerr.errcode = s.errcode := rfl
@[simp] theorem State.flagPerr_perr (s : State) : s.flagPerr.perr = true := rfl
@[simp] theorem State.flagPerr_len (s : State) : s.flagPerr.len = s.len := rfl
@[simp] theorem State.flagPerr_icnt (s : State) : s.flagPerr.icnt = s.icnt := rfl
@[simp] theorem State.flagPerr_ocnt (s : State) : s.flagPerr.ocnt = s.ocnt := rfl
@[simp] theorem State.flagPerr_ifill (s : State) : s.flagPerr.ifill = s.ifill := rfl
@[simp] theorem State.flagPerr_orem (s : State) : s.flagPerr.orem = s.orem := rfl
@[simp] theorem State.flagPerr_prev (s : State) : s.flagPerr.prev = s.prev := rfl
@[simp] theorem State.flagPerr_ibuf (s : State) : s.flagPerr.ibuf = s.ibuf := rfl
@[simp] theorem State.flagPerr_obuf (s : State) : s.flagPerr.obuf = s.obuf := rfl
@[simp] theorem State.flagPerr_rdata (s : State) : s.flagPerr.rdata = s.rdata := rfl
@[simp] theorem State.flagPerr_agenda (s : State) : s.flagPerr.agenda = s.agenda := rfl

@[simp] theorem State.raiseInvalidLength_phase (s : State) : s.raiseInvalidLength.phase = .err := rfl
@[simp] theorem State.raiseInvalidLength_errcode (s : State) : s.raiseInvalidLength.errcode = 1#4 := rfl
@[simp] theorem State.raiseInvalidLength_perr (s : State) : s.raiseInvalidLength.perr = s.perr := rfl
@[simp] theorem State.raiseInvalidLength_len (s : State) : s.raiseInvalidLength.len = s.len := rfl
@[simp] theorem State.raiseInvalidLength_icnt (s : State) : s.raiseInvalidLength.icnt = s.icnt := rfl
@[simp] theorem State.raiseInvalidLength_ocnt (s : State) : s.raiseInvalidLength.ocnt = s.ocnt := rfl
@[simp] theorem State.raiseInvalidLength_ifill (s : State) : s.raiseInvalidLength.ifill = s.ifill := rfl
@[simp] theorem State.raiseInvalidLength_orem (s : State) : s.raiseInvalidLength.orem = s.orem := rfl
@[simp] theorem State.raiseInvalidLength_prev (s : State) : s.raiseInvalidLength.prev = s.prev := rfl
@[simp] theorem State.raiseInvalidLength_ibuf (s : State) : s.raiseInvalidLength.ibuf = s.ibuf := rfl
@[simp] theorem State.raiseInvalidLength_obuf (s : State) : s.raiseInvalidLength.obuf = s.obuf := rfl
@[simp] theorem State.raiseInvalidLength_rdata (s : State) : s.raiseInvalidLength.rdata = s.rdata := rfl
@[simp] theorem State.raiseInvalidLength_agenda (s : State) : s.raiseInvalidLength.agenda = s.agenda := rfl

@[simp] theorem State.clearEngine_phase (s : State) : s.clearEngine.phase = .idle := rfl
@[simp] theorem State.clearEngine_errcode (s : State) : s.clearEngine.errcode = 0#4 := rfl
@[simp] theorem State.clearEngine_perr (s : State) : s.clearEngine.perr = false := rfl
@[simp] theorem State.clearEngine_len (s : State) : s.clearEngine.len = 0#32 := rfl
@[simp] theorem State.clearEngine_icnt (s : State) : s.clearEngine.icnt = 0#32 := rfl
@[simp] theorem State.clearEngine_ocnt (s : State) : s.clearEngine.ocnt = 0#32 := rfl
@[simp] theorem State.clearEngine_ifill (s : State) : s.clearEngine.ifill = 0 := rfl
@[simp] theorem State.clearEngine_orem (s : State) : s.clearEngine.orem = 0 := rfl
@[simp] theorem State.clearEngine_prev (s : State) : s.clearEngine.prev = zeroBlock := rfl
@[simp] theorem State.clearEngine_ibuf (s : State) : s.clearEngine.ibuf = zeroBlock := rfl
@[simp] theorem State.clearEngine_obuf (s : State) : s.clearEngine.obuf = zeroBlock := rfl
@[simp] theorem State.clearEngine_rdata (s : State) : s.clearEngine.rdata = none := rfl
@[simp] theorem State.clearEngine_agenda (s : State) : s.clearEngine.agenda = s.agenda := rfl

@[simp] theorem State.resetEvent_phase (s : State) : s.resetEvent.phase = .idle := rfl
@[simp] theorem State.resetEvent_errcode (s : State) : s.resetEvent.errcode = 0#4 := rfl
@[simp] theorem State.resetEvent_perr (s : State) : s.resetEvent.perr = false := rfl
@[simp] theorem State.resetEvent_len (s : State) : s.resetEvent.len = 0#32 := rfl
@[simp] theorem State.resetEvent_icnt (s : State) : s.resetEvent.icnt = 0#32 := rfl
@[simp] theorem State.resetEvent_ocnt (s : State) : s.resetEvent.ocnt = 0#32 := rfl
@[simp] theorem State.resetEvent_ifill (s : State) : s.resetEvent.ifill = 0 := rfl
@[simp] theorem State.resetEvent_orem (s : State) : s.resetEvent.orem = 0 := rfl
@[simp] theorem State.resetEvent_prev (s : State) : s.resetEvent.prev = zeroBlock := rfl
@[simp] theorem State.resetEvent_ibuf (s : State) : s.resetEvent.ibuf = zeroBlock := rfl
@[simp] theorem State.resetEvent_obuf (s : State) : s.resetEvent.obuf = zeroBlock := rfl
@[simp] theorem State.resetEvent_rdata (s : State) : s.resetEvent.rdata = none := rfl
@[simp] theorem State.resetEvent_agenda (s : State) : s.resetEvent.agenda = s.agenda := rfl

@[simp] theorem State.beginMessage_phase (s : State) (c : Config) : (s.beginMessage c).phase = .run := rfl
@[simp] theorem State.beginMessage_errcode (s : State) (c : Config) : (s.beginMessage c).errcode = s.errcode := rfl
@[simp] theorem State.beginMessage_perr (s : State) (c : Config) : (s.beginMessage c).perr = s.perr := rfl
@[simp] theorem State.beginMessage_len (s : State) (c : Config) : (s.beginMessage c).len = s.len := rfl
@[simp] theorem State.beginMessage_icnt (s : State) (c : Config) : (s.beginMessage c).icnt = 0#32 := rfl
@[simp] theorem State.beginMessage_ocnt (s : State) (c : Config) : (s.beginMessage c).ocnt = 0#32 := rfl
@[simp] theorem State.beginMessage_ifill (s : State) (c : Config) : (s.beginMessage c).ifill = 0 := rfl
@[simp] theorem State.beginMessage_orem (s : State) (c : Config) : (s.beginMessage c).orem = 0 := rfl
@[simp] theorem State.beginMessage_prev (s : State) (c : Config) : (s.beginMessage c).prev = c.iv := rfl
@[simp] theorem State.beginMessage_ibuf (s : State) (c : Config) : (s.beginMessage c).ibuf = s.ibuf := rfl
@[simp] theorem State.beginMessage_obuf (s : State) (c : Config) : (s.beginMessage c).obuf = s.obuf := rfl
@[simp] theorem State.beginMessage_rdata (s : State) (c : Config) : (s.beginMessage c).rdata = s.rdata := rfl
@[simp] theorem State.beginMessage_agenda (s : State) (c : Config) : (s.beginMessage c).agenda = s.agenda := rfl

@[simp] theorem State.storeLen_phase (s : State) (n : Word) : (s.storeLen n).phase = s.phase := rfl
@[simp] theorem State.storeLen_errcode (s : State) (n : Word) : (s.storeLen n).errcode = s.errcode := rfl
@[simp] theorem State.storeLen_perr (s : State) (n : Word) : (s.storeLen n).perr = s.perr := rfl
@[simp] theorem State.storeLen_len (s : State) (n : Word) : (s.storeLen n).len = n := rfl
@[simp] theorem State.storeLen_icnt (s : State) (n : Word) : (s.storeLen n).icnt = s.icnt := rfl
@[simp] theorem State.storeLen_ocnt (s : State) (n : Word) : (s.storeLen n).ocnt = s.ocnt := rfl
@[simp] theorem State.storeLen_ifill (s : State) (n : Word) : (s.storeLen n).ifill = s.ifill := rfl
@[simp] theorem State.storeLen_orem (s : State) (n : Word) : (s.storeLen n).orem = s.orem := rfl
@[simp] theorem State.storeLen_prev (s : State) (n : Word) : (s.storeLen n).prev = s.prev := rfl
@[simp] theorem State.storeLen_ibuf (s : State) (n : Word) : (s.storeLen n).ibuf = s.ibuf := rfl
@[simp] theorem State.storeLen_obuf (s : State) (n : Word) : (s.storeLen n).obuf = s.obuf := rfl
@[simp] theorem State.storeLen_rdata (s : State) (n : Word) : (s.storeLen n).rdata = s.rdata := rfl
@[simp] theorem State.storeLen_agenda (s : State) (n : Word) : (s.storeLen n).agenda = s.agenda := rfl

@[simp] theorem State.acceptByte_phase (s : State) (b : Byte) : (s.acceptByte b).phase = s.phase := rfl
@[simp] theorem State.acceptByte_errcode (s : State) (b : Byte) : (s.acceptByte b).errcode = s.errcode := rfl
@[simp] theorem State.acceptByte_perr (s : State) (b : Byte) : (s.acceptByte b).perr = s.perr := rfl
@[simp] theorem State.acceptByte_len (s : State) (b : Byte) : (s.acceptByte b).len = s.len := rfl
@[simp] theorem State.acceptByte_icnt (s : State) (b : Byte) : (s.acceptByte b).icnt = s.icnt + 1#32 := rfl
@[simp] theorem State.acceptByte_ocnt (s : State) (b : Byte) : (s.acceptByte b).ocnt = s.ocnt := rfl
@[simp] theorem State.acceptByte_ifill (s : State) (b : Byte) : (s.acceptByte b).ifill = s.ifill + 1 := rfl
@[simp] theorem State.acceptByte_orem (s : State) (b : Byte) : (s.acceptByte b).orem = s.orem := rfl
@[simp] theorem State.acceptByte_prev (s : State) (b : Byte) : (s.acceptByte b).prev = s.prev := rfl
@[simp] theorem State.acceptByte_ibuf (s : State) (b : Byte) : (s.acceptByte b).ibuf = s.ibufWith b := rfl
@[simp] theorem State.acceptByte_obuf (s : State) (b : Byte) : (s.acceptByte b).obuf = s.obuf := rfl
@[simp] theorem State.acceptByte_rdata (s : State) (b : Byte) : (s.acceptByte b).rdata = s.rdata := rfl
@[simp] theorem State.acceptByte_agenda (s : State) (b : Byte) : (s.acceptByte b).agenda = s.agenda := rfl

@[simp] theorem State.deliverByte_phase (s : State) : s.deliverByte.phase = s.phaseAfterPop := rfl
@[simp] theorem State.deliverByte_errcode (s : State) : s.deliverByte.errcode = s.errcode := rfl
@[simp] theorem State.deliverByte_perr (s : State) : s.deliverByte.perr = s.perr := rfl
@[simp] theorem State.deliverByte_len (s : State) : s.deliverByte.len = s.len := rfl
@[simp] theorem State.deliverByte_icnt (s : State) : s.deliverByte.icnt = s.icnt := rfl
@[simp] theorem State.deliverByte_ocnt (s : State) : s.deliverByte.ocnt = s.ocnt + 1#32 := rfl
@[simp] theorem State.deliverByte_ifill (s : State) : s.deliverByte.ifill = s.ifill := rfl
@[simp] theorem State.deliverByte_orem (s : State) : s.deliverByte.orem = s.orem - 1 := rfl
@[simp] theorem State.deliverByte_prev (s : State) : s.deliverByte.prev = s.prev := rfl
@[simp] theorem State.deliverByte_ibuf (s : State) : s.deliverByte.ibuf = s.ibuf := rfl
@[simp] theorem State.deliverByte_obuf (s : State) : s.deliverByte.obuf = s.obuf := rfl
@[simp] theorem State.deliverByte_rdata (s : State) : s.deliverByte.rdata = s.rdata := rfl
@[simp] theorem State.deliverByte_agenda (s : State) : s.deliverByte.agenda = s.agenda := rfl

@[simp] theorem State.blkStep_phase (s : State) (c : Config) : (s.blkStep c).phase = s.phase := rfl
@[simp] theorem State.blkStep_errcode (s : State) (c : Config) : (s.blkStep c).errcode = s.errcode := rfl
@[simp] theorem State.blkStep_perr (s : State) (c : Config) : (s.blkStep c).perr = s.perr := rfl
@[simp] theorem State.blkStep_len (s : State) (c : Config) : (s.blkStep c).len = s.len := rfl
@[simp] theorem State.blkStep_icnt (s : State) (c : Config) : (s.blkStep c).icnt = s.icnt := rfl
@[simp] theorem State.blkStep_ocnt (s : State) (c : Config) : (s.blkStep c).ocnt = s.ocnt := rfl
@[simp] theorem State.blkStep_ifill (s : State) (c : Config) : (s.blkStep c).ifill = 0 := rfl
@[simp] theorem State.blkStep_orem (s : State) (c : Config) : (s.blkStep c).orem = 16 := rfl
@[simp] theorem State.blkStep_prev (s : State) (c : Config) : (s.blkStep c).prev = s.ibuf := rfl
@[simp] theorem State.blkStep_ibuf (s : State) (c : Config) : (s.blkStep c).ibuf = s.ibuf := rfl
@[simp] theorem State.blkStep_obuf (s : State) (c : Config) : (s.blkStep c).obuf = xorBlock (invCipher c.key s.ibuf) s.prev := rfl
@[simp] theorem State.blkStep_rdata (s : State) (c : Config) : (s.blkStep c).rdata = s.rdata := rfl
@[simp] theorem State.blkStep_agenda (s : State) (c : Config) : (s.blkStep c).agenda = s.agenda := rfl

end Sys2Proof.Machine
end

