-- ==== Sys2Proof/Laws/Ops.lean ====
section
/-! SUPPORT. For each shared operation, once, everything it can do. -/

namespace Sys2Proof.Machine

/-- A turn of ENGINE is the block step in a busy state and nothing in any other. -/
theorem engineTurn_cases (c : Config) (s : State) :
    (s.busy = true ∧ s.engineTurn c = s.blkStep c) ∨ (s.busy = false ∧ s.engineTurn c = s) := by
  unfold State.engineTurn
  cases h : s.busy <;> simp

/-- After a delivered byte STATE is DONE, with OCNT + 1 = LEN, or as it was. -/
theorem phaseAfterPop_cases (s : State) :
    (s.ocnt + 1#32 = s.len ∧ s.phaseAfterPop = .done) ∨ (s.ocnt + 1#32 ≠ s.len ∧ s.phaseAfterPop = s.phase) := by
  unfold State.phaseAfterPop
  by_cases h : s.ocnt + 1#32 = s.len <;> simp [h]

/-- START: a violation, InvalidLength, or a message opened. -/
theorem execStart_cases (s t : State) (h : execStart s = .next t) :
    (s.phase ≠ .idle ∧ t = s.flagPerr.noAnswer) ∨
    (s.phase = .idle ∧ badLength s.len = true ∧ t = s.raiseInvalidLength.noAnswer) ∨
    (s.phase = .idle ∧ badLength s.len = false ∧ t = (s.beginMessage engineConfig).noAnswer) := by
  unfold execStart at h
  injection h with h
  subst h
  by_cases hp : s.phase = .idle
  · cases hb : badLength s.len <;> simp [hp]
  · simp [hp]

/-- SETLEN: stored in IDLE, else a violation. -/
theorem execSetlen_cases (n : Word) (s t : State) (h : execSetlen n s = .next t) :
    (s.phase = .idle ∧ t = (s.storeLen n).noAnswer) ∨ (s.phase ≠ .idle ∧ t = s.flagPerr.noAnswer) := by
  unfold execSetlen at h
  injection h with h
  subst h
  by_cases hp : s.phase = .idle <;> simp [hp]

/-- PUSH: accepted with IRDY = 1, else a violation. -/
theorem execPush_cases (b : Byte) (s t : State) (h : execPush b s = .next t) :
    (s.irdy = true ∧ t = (s.acceptByte b).noAnswer) ∨ (s.irdy = false ∧ t = s.flagPerr.noAnswer) := by
  unfold execPush at h
  injection h with h
  subst h
  cases hi : s.irdy <;> simp

/-- POP: a byte delivered with ORDY = 1, else a violation that answers 0. -/
theorem execPop_cases (s t : State) (h : execPop s = .next t) :
    (s.ordy = true ∧ t = s.deliverByte.answer (zextByte s.nextOut)) ∨
    (s.ordy = false ∧ t = s.flagPerr.answer 0#32) := by
  unfold execPop at h
  injection h with h
  subst h
  cases ho : s.ordy <;> simp

/-- IFILL moves on by exactly one while IBUF has room. -/
theorem acceptByte_ifill_val (s : State) (b : Byte) (h : s.ifill.val < 16) :
    (s.acceptByte b).ifill.val = s.ifill.val + 1 := by
  have : s.ifill.val + 1 < 17 := by omega
  simp [Fin.val_add, Nat.mod_eq_of_lt this]

/-- OREM goes down by exactly one while bytes are unread. -/
theorem deliverByte_orem_val (s : State) (h : 0 < s.orem.val) : s.deliverByte.orem.val = s.orem.val - 1 := by
  have h' := s.orem.isLt
  simp only [State.deliverByte_orem, Fin.val_sub, Fin.val_one]
  omega

end Sys2Proof.Machine
end

