-- ==== Sys2Proof/Laws/Step.lean ====
section
/-! SUPPORT. What one step can do, by the next event; what performing one event is. -/

namespace Sys2Proof.Machine

/-- A step with an answer: ENGINE's turn, a reset, or one transaction. -/
theorem step_cases (s t : State) (h : step s = .next t) :
    (s.agenda = [] ∧ t = s.engineTurn engineConfig) ∨
    (∃ rest, s.agenda = .engine :: rest ∧ t = State.engineTurn engineConfig { s with agenda := rest }) ∨
    (∃ rest, s.agenda = .reset :: rest ∧ t = State.resetEvent { s with agenda := rest }) ∨
    (∃ tw rest, s.agenda = .host tw :: rest ∧ exec (decode tw) { s with agenda := rest } = .next t) := by
  unfold step at h
  split at h
  · rename_i ha; injection h with h; exact .inl ⟨ha, h.symm⟩
  · rename_i rest ha; injection h with h; exact .inr (.inl ⟨rest, ha, h.symm⟩)
  · rename_i rest ha; injection h with h; exact .inr (.inr (.inl ⟨rest, ha, h.symm⟩))
  · rename_i tw rest ha; exact .inr (.inr (.inr ⟨tw, rest, ha, h⟩))

theorem perform_engine (s : State) :
    s.perform .engine = State.engineTurn engineConfig { s with agenda := [] } := rfl

theorem perform_reset (s : State) : s.perform .reset = State.reset := rfl

/-- Performing a transaction is what `exec` answers for it. -/
theorem perform_host (s t : State) (tw : TWord) (h : exec (decode tw) { s with agenda := [] } = .next t) :
    s.perform (.host tw) = t := by
  have hs : step { s with agenda := [.host tw] } = .next t := h
  simp [State.perform, hs]

theorem performAll_append (s : State) (es fs : List Event) :
    s.performAll (es ++ fs) = (s.performAll es).performAll fs := by
  induction es generalizing s with
  | nil => rfl
  | cons e es ih => exact ih _

end Sys2Proof.Machine
end

