-- ==== Sys2Proof/Tests/Slice0.lean ====
section
/-! SUPPORT. The model's own tests: the check of well-formedness, words written out from the spec's encoding, one step of
each transaction with the values of `95_test_vectors.md`, and for each statement with hypotheses a state that meets them. -/

namespace Sys2Proof.Tests

open Sys2Proof.Machine

/-! ### Well-formedness: an ill-formed term for each check -/

theorem test_ctrlrsvd_start_code_refused : (Instr.ctrlrsvd 0x01#8).wf = false := by decide
theorem test_ctrlrsvd_clear_code_refused : (Instr.ctrlrsvd 0x02#8).wf = false := by decide
theorem test_ctrlrsvd_reserved_accepted : (Instr.ctrlrsvd 0x00#8).wf ∧ (Instr.ctrlrsvd 0x03#8).wf := by decide
theorem test_illegal_mapped_write_refused :
    (Instr.illegal .write 0x00#8).wf = false ∧ (Instr.illegal .write 0x08#8).wf = false ∧
      (Instr.illegal .write 0x0C#8).wf = false := by decide
theorem test_illegal_mapped_read_refused :
    (Instr.illegal .read 0x04#8).wf = false ∧ (Instr.illegal .read 0x08#8).wf = false ∧
      (Instr.illegal .read 0x10#8).wf = false ∧ (Instr.illegal .read 0x14#8).wf = false ∧
      (Instr.illegal .read 0x18#8).wf = false := by decide
theorem test_illegal_other_accepted : (Instr.illegal .read 0x0C#8).wf ∧ (Instr.illegal .write 0x1C#8).wf := by decide

/-! ### Decoding: words written out bit by bit from rule R46 (RW, ADDR, WDATA) and the words of rows T1 to T40 -/

theorem test_decode_start : decode 0b1_00000000_00000000000000000000000000000001#41 = .start := by decide
theorem test_decode_clear : decode 0b1_00000000_00000000000000000000000000000010#41 = .clear := by decide
theorem test_decode_ctrlrsvd : decode 0b1_00000000_00000000000000000000000000000011#41 = .ctrlrsvd 0x03#8 := by decide
theorem test_decode_setlen : decode 0b1_00001000_00000000000000000000000000011000#41 = .setlen 24#32 := by decide
theorem test_decode_push : decode 0b1_00001100_11111111111111111111111100110100#41 = .push 0x34#8 := by decide
theorem test_decode_stat : decode 0b0_00000100_00000000000000000000000000000000#41 = .stat := by decide
theorem test_decode_getlen : decode 0b0_00001000_00000000000000000000000000000000#41 = .getlen := by decide
theorem test_decode_pop : decode 0b0_00010000_00000000000000000000000000000000#41 = .pop := by decide
theorem test_decode_geticnt : decode 0b0_00010100_00000000000000000000000000000000#41 = .geticnt := by decide
theorem test_decode_getocnt : decode 0b0_00011000_00000000000000000000000000000000#41 = .getocnt := by decide
theorem test_decode_illegal : decode 0b0_00000101_00000000000000000000000000000000#41 = .illegal .read 0x05#8 := by decide
theorem test_decode_ignored_bits : decode 0x10000000101#41 = .start ∧ decode 0x00400000007#41 = .stat := by decide
theorem test_decode_row_order : decode 0x10000000000#41 = .ctrlrsvd 0x00#8 ∧ decode 0#41 = .illegal .read 0x00#8 := by decide
theorem test_table_word_runs : step (State.reset.withFetchWord 48 0x10800000010) = .next { State.reset with len := 16#32 } :=
  rfl

/-! ### States of one message, built from reset -/

/-- A host transaction as an event. -/
def tx (i : Instr) : Event := .host (encode i)
/-- Sixteen zero bytes pushed. -/
def pushes (n : Nat) : List Event := List.replicate n (tx (.push 0x00#8))
/-- n reads of DOUT. -/
def pops (n : Nat) : List Event := List.replicate n (tx .pop)

def idle16 : State := State.reset.perform (tx (.setlen 16#32))
def run16 : State := startedWith 16#32
def run32 : State := startedWith 32#32
def part15 : State := run16.performAll (pushes 15)
def full16 : State := run16.performAll (pushes 16)
def out16 : State := full16.perform .engine
def last16 : State := out16.performAll (pops 15)
def done16 : State := last16.perform (tx .pop)
def err8 : State := startedWith 8#32
/-- The second block full behind the last unread byte of the first. -/
def behind32 : State := run32.performAll (pushes 16 ++ [.engine] ++ pushes 16 ++ pops 15)

/-! ### One step of each transaction (`95_test_vectors.md` section 2.6) -/

theorem test_stat_idle_T1 : (State.reset.perform (tx .stat)).rdata = some 0x00000000#32 := by decide
theorem test_stat_err_T7 : ((startedWith 24#32).perform (tx .stat)).rdata = some 0x00000103#32 := by decide +kernel
theorem test_getlen_err_T17 : ((startedWith 24#32).perform (tx .getlen)).rdata = some 0x00000018#32 := by decide +kernel
theorem test_geticnt_T27 : ((run32.performAll (pushes 2)).perform (tx .geticnt)).rdata = some 2#32 := by decide +kernel
theorem test_getocnt_done : (done16.perform (tx .getocnt)).rdata = some 16#32 := by decide +kernel
theorem test_start_T6 : (State.reset.perform (tx .start)).phase = .err ∧
    (State.reset.perform (tx .start)).errcode = 1#4 := by decide
theorem test_start_T15 : (err8.perform (tx .start)).perr = true ∧ (err8.perform (tx .start)).phase = .err := by
  decide +kernel
theorem test_clear_T42 : State.reset.performAll [tx (.setlen 5#32), tx .clear] = State.reset := by decide
theorem test_ctrlrsvd_T32 : State.reset.perform (tx (.ctrlrsvd 0x03#8)) = { State.reset with perr := true } := by decide
theorem test_setlen_T22 : (idle16.perform (tx (.setlen 32#32))).len = 32#32 := by decide
theorem test_setlen_T28 : (run32.perform (tx (.setlen 48#32))).len = 32#32 ∧
    (run32.perform (tx (.setlen 48#32))).perr = true := by decide +kernel
theorem test_push_T26 : byteAt (run32.performAll [tx (.push 0x5a#8), .host 0x10CFFFFFF34#41]).ibuf 1 = 0x34#8 := by
  decide +kernel
theorem test_push_seventeenth_dropped : full16.perform (tx (.push 0xaa#8)) = { full16 with perr := true } := by
  decide +kernel
theorem test_pop_T3 : State.reset.perform (tx .pop) = { State.reset with perr := true, rdata := some 0#32 } := by decide
theorem test_pop_last_byte : done16.phase = .done ∧ done16.statusWord = 0x00000002#32 := by decide +kernel
theorem test_illegal_T38 : (State.reset.perform (.host 0x00500000000#41)) =
    { State.reset with perr := true, rdata := some 0#32 } := by decide
theorem test_illegal_T39 : (State.reset.perform (.host 0x1FC00000007#41)) = { State.reset with perr := true } := by decide

/-! ### The cipher, CBC and the software layer (`95_test_vectors.md` sections 1 and 2) -/

theorem test_gmul_checks : gmul 0x57#8 0x83#8 = 0xc1#8 ∧ gmul 0x53#8 0xca#8 = 0x01#8 ∧ gmul 0xff#8 0xff#8 = 0x13#8 := by
  decide
theorem test_boxes : sBox 0x53#8 = 0xed#8 ∧ sBox 0x7f#8 = 0xd2#8 ∧ invSBox 0x52#8 = 0x48#8 ∧ invSBox 0xff#8 = 0x7d#8 := by
  decide
/-- FIPS 197 B, as section 2.3 gives it: another key than this engine's. -/
def keyB : Block :=
  #v[0x2b#8, 0x7e#8, 0x15#8, 0x16#8, 0x28#8, 0xae#8, 0xd2#8, 0xa6#8, 0xab#8, 0xf7#8, 0x15#8, 0x88#8, 0x09#8, 0xcf#8,
     0x4f#8, 0x3c#8]
def plainB : Block :=
  #v[0x32#8, 0x43#8, 0xf6#8, 0xa8#8, 0x88#8, 0x5a#8, 0x30#8, 0x8d#8, 0x31#8, 0x31#8, 0x98#8, 0xa2#8, 0xe0#8, 0x37#8,
     0x07#8, 0x34#8]
def cipherB : Block :=
  #v[0x39#8, 0x25#8, 0x84#8, 0x1d#8, 0x02#8, 0xdc#8, 0x09#8, 0xfb#8, 0xdc#8, 0x11#8, 0x85#8, 0x97#8, 0x19#8, 0x6a#8,
     0x0b#8, 0x32#8]
theorem test_inv_cipher_fips : invCipher keyB cipherB = plainB := by decide +kernel
theorem test_cipher_fips : cipher keyB plainB = cipherB := by decide +kernel
/-- The block of S1, "Secret1". -/
def secretBlock : Block :=
  #v[0x5a#8, 0x34#8, 0x9e#8, 0x14#8, 0x3a#8, 0xa8#8, 0xe7#8, 0x95#8, 0x7a#8, 0x71#8, 0xd5#8, 0x98#8, 0x4b#8, 0x75#8,
     0xf1#8, 0xbf#8]
theorem test_blkstep_V1 :
    (State.blkStep engineConfig { run16 with ibuf := secretBlock, ifill := 16 }).obuf =
      #v[0x53#8, 0#8, 0x65#8, 0#8, 0x63#8, 0#8, 0x72#8, 0#8, 0x65#8, 0#8, 0x74#8, 0#8, 0x31#8, 0#8, 0#8, 0#8] := by
  decide +kernel
/-- V4, two blocks: chaining. -/
theorem test_cbc_V4 :
    cbcDecrypt engineConfig.key engineConfig.iv
      [0xd9#8, 0xbf#8, 0x0f#8, 0x47#8, 0x53#8, 0x7c#8, 0x04#8, 0x5d#8, 0x5a#8, 0x2a#8, 0x76#8, 0x41#8, 0x05#8, 0xf2#8,
       0xf7#8, 0x09#8, 0x20#8, 0xa6#8, 0x70#8, 0x9e#8, 0x9e#8, 0x39#8, 0x8a#8, 0x55#8, 0xa2#8, 0xb8#8, 0x96#8, 0x87#8,
       0xe2#8, 0x52#8, 0x66#8, 0xe5#8] =
      [0x43#8, 0#8, 0x6f#8, 0#8, 0x72#8, 0#8, 0x72#8, 0#8, 0x65#8, 0#8, 0x63#8, 0#8, 0x74#8, 0#8, 0x48#8, 0#8,
       0x6f#8, 0#8, 0x72#8, 0#8, 0x73#8, 0#8, 0x65#8, 0#8, 0x34#8, 0#8, 0x32#8, 0#8, 0#8, 0#8, 0#8, 0#8] := by
  decide +kernel
theorem test_utf16_pairs :
    utf16leDecode [0x3d#8, 0xd8#8, 0x00#8, 0xde#8] = .ok [Char.ofNat 0x1F600] ∧
    utf16leDecode [0xff#8, 0xdb#8, 0xff#8, 0xdf#8] = .ok [Char.ofNat 0x10FFFF] := by decide +kernel
theorem test_utf16_no_bom :
    utf16leDecode [0xff#8, 0xfe#8, 0x41#8, 0x00#8] = .ok [Char.ofNat 0xFEFF, 'A'] := by decide +kernel
theorem test_utf16_reversed_pair : utf16leDecode [0x00#8, 0xdc#8, 0x00#8, 0xd8#8] = .err .decodeError := by
  decide +kernel
theorem test_trim_keeps_inner : trimNul ['A', nul, 'B', nul] = ['A', nul, 'B'] := by decide +kernel
theorem test_pad_empty : (padNul []).length = 16 ∧ (padNul (List.replicate 16 0x41#8)).length = 16 := by decide
theorem test_parse_leading_zeros : parseArg ['0', '0', '7'] = .ok [7#8] ∧ parseArg ['2', '5', '6'] = .err .parseError := by
  decide +kernel
theorem test_parse_trailing_newline : parseArg ['1', '\n'] = .err .parseError := by decide +kernel
/-- The command-line argument of S1. -/
def secretArg : Text :=
  ['9', '0', '\n', '5', '2', '\n', '1', '5', '8', '\n', '2', '0', '\n', '5', '8', '\n', '1', '6', '8', '\n', '2', '3',
   '1', '\n', '1', '4', '9', '\n', '1', '2', '2', '\n', '1', '1', '3', '\n', '2', '1', '3', '\n', '1', '5', '2', '\n',
   '7', '5', '\n', '1', '1', '7', '\n', '2', '4', '1', '\n', '1', '9', '1']
theorem test_program_S1 : programEnd [secretArg] = .success ['S', 'e', 'c', 'r', 'e', 't', '1'] := by decide +kernel
theorem test_program_S2 : programEnd [['1', '\n', '2']] = .failure .invalidLength := by decide +kernel
/-- The message of S2 is not that of a run without argument (rule R133). -/
theorem test_messages_differ : (programMain [['1', '\n', '2']]).1 ≠ (programMain []).1 := by
  rw [programMain_failure test_program_S2, programMain_failure (k := .usageError) rfl]
  simp

/-! ### Witnesses: the hypotheses of the statements hold together -/

/-- Field values of words that meet the decoding hypotheses, each at a word of the table. -/
theorem witness_words :
    (twDir 0x00400000000#41 = .read ∧ twAddr 0x00400000000#41 = 0x04#8) ∧
    (twDir 0x00800000000#41 = .read ∧ twAddr 0x00800000000#41 = 0x08#8) ∧
    (twDir 0x01000000000#41 = .read ∧ twAddr 0x01000000000#41 = 0x10#8) ∧
    (twDir 0x01400000000#41 = .read ∧ twAddr 0x01400000000#41 = 0x14#8) ∧
    (twDir 0x01800000000#41 = .read ∧ twAddr 0x01800000000#41 = 0x18#8) ∧
    (twDir 0x10000000101#41 = .write ∧ twAddr 0x10000000101#41 = 0x00#8 ∧ twLow 0x10000000101#41 = 0x01#8) ∧
    (twDir 0x10000000002#41 = .write ∧ twAddr 0x10000000002#41 = 0x00#8 ∧ twLow 0x10000000002#41 = 0x02#8) ∧
    (twDir 0x10000000003#41 = .write ∧ twAddr 0x10000000003#41 = 0x00#8 ∧ twLow 0x10000000003#41 ≠ 0x01#8 ∧
      twLow 0x10000000003#41 ≠ 0x02#8) ∧
    (twDir 0x10800000000#41 = .write ∧ twAddr 0x10800000000#41 = 0x08#8) ∧
    (twDir 0x10CFFFFFF34#41 = .write ∧ twAddr 0x10CFFFFFF34#41 = 0x0C#8) := by decide

/-- Words for each disjunct of the ILLEGAL hypothesis, at the ends of the ranges. -/
theorem witness_illegal_words :
    (twDir 0x00C00000000#41 = .read ∧ twAddr 0x00C00000000#41 = 0x0C#8) ∧
    (twDir 0x11800000000#41 = .write ∧ twAddr 0x11800000000#41 = 0x18#8) ∧
    (twAddr 0x01C00000000#41).toNat = 0x1C ∧ (twAddr 0x1FF00000000#41).toNat = 0xFF ∧
    (twAddr 0x00500000000#41).toNat % 4 ≠ 0 := by decide

/-- Words that differ in ignored bits alone, of a read and of a write. -/
theorem witness_ignored_bits :
    (twDir 0x00400000000#41 = twDir 0x004FFFFFFFF#41 ∧ twAddr 0x00400000000#41 = twAddr 0x004FFFFFFFF#41 ∧
      twDir 0x00400000000#41 = .read) ∧
    (twDir 0x10C00000034#41 = twDir 0x10CFFFFFF34#41 ∧ twAddr 0x10C00000034#41 = twAddr 0x10CFFFFFF34#41 ∧
      twAddr 0x10C00000034#41 = 0x0C#8 ∧ twLow 0x10C00000034#41 = twLow 0x10CFFFFFF34#41) := by decide

theorem witness_inv_idle : idle16.Inv := by constructor <;> decide +kernel
theorem witness_inv_run : run16.Inv := by constructor <;> decide +kernel
theorem witness_inv_part : part15.Inv := by constructor <;> decide +kernel
theorem witness_inv_busy : full16.Inv := by constructor <;> decide +kernel
theorem witness_inv_out : out16.Inv := by constructor <;> decide +kernel
theorem witness_inv_last : last16.Inv := by constructor <;> decide +kernel
theorem witness_inv_done : done16.Inv := by constructor <;> decide +kernel
theorem witness_inv_err : err8.Inv := by constructor <;> decide +kernel
theorem witness_inv_behind : behind32.Inv := by constructor <;> decide +kernel

/-- START's three cases: a state outside IDLE, a bad length, the shortest legal length. -/
theorem witness_start :
    run16.phase ≠ .idle ∧ (State.reset.phase = .idle ∧ State.reset.len.toNat = 0) ∧
    (idle16.phase = .idle ∧ 0 < idle16.len.toNat ∧ idle16.len.toNat % 16 = 0) := by decide +kernel
theorem witness_bad_length : badLength 0#32 = true ∧ badLength 17#32 = true ∧ badLength 0xFFFFFFFF#32 = true ∧
    badLength 0xFFFFFFF0#32 = false := by decide
/-- START refused in IDLE, and what it answers: the premise of GETLEN's third clause and of SETLEN's fourth. -/
theorem witness_start_refused : exec .start State.reset = .next { State.reset with phase := .err, errcode := 1#4 } ∧
    exec (.setlen 16#32) State.reset = .next { State.reset with len := 16#32 } := ⟨rfl, rfl⟩
/-- PUSH's cases: accepted first and last in a block, refused full. -/
theorem witness_push :
    (run16.phase = .run ∧ run16.ifill.val = 0 ∧ run16.icnt.toNat < run16.len.toNat) ∧
    (part15.phase = .run ∧ part15.ifill.val = 15 ∧ part15.icnt.toNat < part15.len.toNat) ∧
    ¬ (full16.phase = .run ∧ full16.ifill.val < 16 ∧ full16.icnt.toNat < full16.len.toNat) := by decide +kernel
/-- POP's cases: the first byte, the last byte, none. -/
theorem witness_pop :
    out16.orem.val = 16 ∧ (last16.orem.val = 1 ∧ last16.perr = false ∧ last16.ocnt + 1#32 = last16.len) ∧
    (behind32.orem.val = 1 ∧ behind32.ifill.val = 16) ∧ run16.orem.val = 0 := by decide +kernel
/-- The phases of the clauses by phase. -/
theorem witness_phases :
    idle16.phase = .idle ∧ run16.phase = .run ∧ done16.phase = .done ∧ err8.phase = .err := by decide +kernel
theorem witness_flags :
    run16.irdy = true ∧ part15.irdy = true ∧ full16.busy = true ∧ out16.ordy = true ∧ out16.irdy = false := by decide +kernel
/-- An agenda with each kind of next event. -/
theorem witness_agenda :
    ({ full16 with agenda := [.engine] } : State).busy = true ∧ ({ run16 with agenda := [.engine] } : State).busy = false ∧
    ({ run16 with agenda := [.reset, tx .stat] } : State).agenda = .reset :: [tx .stat] ∧
    ({ run16 with agenda := [tx .stat] } : State).agenda = .host (encode .stat) :: [] := by decide +kernel
/-- The step into DONE and the step into ERR. -/
theorem witness_run_ends :
    ((last16.perform (tx .pop)).phase = .done ∧ last16.phase ≠ .done) ∧
    ((State.reset.perform (tx .start)).phase = .err ∧ State.reset.phase ≠ .err) := by decide +kernel
/-- The violating transactions, row by row of rule R142, and transactions that violate nothing. -/
theorem witness_violations :
    violates run16 .start = true ∧ violates run16 (.ctrlrsvd 0x00#8) = true ∧ violates run16 (.setlen 1#32) = true ∧
    violates full16 (.push 0#8) = true ∧ violates run16 .pop = true ∧ violates run16 (.illegal .read 0#8) = true ∧
    violates idle16 .start = false ∧ violates idle16 (.setlen 1#32) = false ∧ violates run16 (.push 0#8) = false ∧
    violates out16 .pop = false ∧ violates run16 .stat = false := by decide +kernel
/-- Events that do not lead out of ERR; events that do not end BUSY. -/
theorem witness_quiet_events :
    (∀ e ∈ [tx (.push 0#8), tx .pop, tx .start, Event.engine], e ≠ .reset ∧ e.instr? ≠ some .clear) ∧
    (∀ e ∈ [tx (.push 0#8), tx .pop, tx .stat, tx .start], e ≠ .engine ∧ e ≠ .reset ∧ e.instr? ≠ some .clear) := by
  decide
theorem witness_event_not_push : tx .pop ≠ .reset ∧ (tx .pop).instr? ≠ some .clear ∧
    (∀ b, (tx .pop).instr? ≠ some (.push b)) ∧ (tx (.push 0#8)).instr? ≠ some .pop := by
  refine ⟨by decide, by decide, fun b => ?_, by decide⟩
  rw [show (tx .pop).instr? = some .pop by decide]
  simp
/-- The stream law holds of a reached state with a block pushed and stepped. -/
theorem witness_stream_law : StreamInv out16 ⟨List.replicate 16 0#8, []⟩ :=
  { inv := witness_inv_out
    sentCount := by decide +kernel
    gotCount := by decide +kernel
    delivered := by decide +kernel
    unread := by decide +kernel
    unstepped := by decide +kernel
    chaining := by decide +kernel }
/-- One whole message: the events of rule R85 that end in DONE with no violation. -/
theorem witness_message :
    (∀ e ∈ pushes 16 ++ [.engine] ++ pops 16, e.inMessage = true) ∧
    (run16.performAll (pushes 16 ++ [.engine] ++ pops 16)).phase = .done ∧
    (run16.performAll (pushes 16 ++ [.engine] ++ pops 16)).perr = false := by decide +kernel
/-- Two engines in IDLE with the same LEN that hold different residues. -/
theorem witness_other_idle :
    idle16.phase = .idle ∧ ({ idle16 with obuf := secretBlock } : State).phase = .idle ∧ badLength idle16.len = false ∧
    idle16 ≠ { idle16 with obuf := secretBlock } := by decide +kernel
/-- Outside RUN with IBUF empty, PREV and IBUF are residue. -/
theorem same_to_host_residue (s : State) (p b : Block) (hp : s.phase ≠ .run) (hf : s.ifill.val = 0) :
    SameToHost s { s with prev := p, ibuf := b } where
  phase := rfl
  errcode := rfl
  perr := rfl
  len := rfl
  icnt := rfl
  ocnt := rfl
  ifill := rfl
  orem := rfl
  prev := fun h => absurd h hp
  ibuf := fun i h => absurd h (by omega)
  obuf := fun _ _ => rfl
  rdata := rfl
  agenda := rfl
/-- Two different states that a host cannot tell apart. -/
theorem witness_same_to_host : SameToHost done16 { done16 with prev := secretBlock, ibuf := secretBlock } :=
  same_to_host_residue done16 secretBlock secretBlock (by decide +kernel) (by decide +kernel)
theorem witness_same_to_host_differs : done16 ≠ { done16 with prev := secretBlock, ibuf := secretBlock } := by
  decide +kernel

/-- ENGINE and the host by turns. -/
def byTurns (n : Nat) : Turn := if n % 2 = 0 then .engine else .host
theorem witness_fair : FairSchedule byTurns where
  noReset := by intro n; unfold byTurns; split <;> simp
  engineAgain := fun n => ⟨2 * n, by omega, by simp [byTurns]⟩
  hostAgain := fun n => ⟨2 * n + 1, by omega, by simp [byTurns, Nat.add_mod]⟩
/-- A run in which the driver returns a plaintext, with its length below the bound. -/
theorem witness_driver_returns :
    (System.run byTurns ⟨.init (List.replicate 16 0#8), State.reset⟩ 90).returned
      (driverAnswer (List.replicate 16 0#8)) ∧ (List.replicate 16 (0#8 : Byte)).length < 2 ^ 32 := by
  unfold System.returned
  decide +kernel
theorem witness_driver_started :
    (System.run byTurns ⟨.init [0#8], err8⟩ 2).driver.pc ≠ .firstClear := by decide +kernel

/-- Whole-block byte sequences, and a ciphertext damaged in block 0 of 2. -/
theorem witness_blocks :
    (List.replicate 32 (0#8 : Byte)).length = 16 * 2 ∧ (0x10#8 :: List.replicate 31 (0#8 : Byte)).length = 16 * 2 := by
  decide
theorem witness_damage :
    ∀ j, j < 16 * 0 ∨ 16 * 0 + 16 ≤ j →
      (0x10#8 :: List.replicate 31 (0#8 : Byte)).getD j 0#8 = (List.replicate 32 (0#8 : Byte)).getD j 0#8 := by
  intro j h
  match j, h with
  | 0, h => omega
  | n + 1, _ => simp [List.getD]
theorem witness_key_words : (4 ≤ 4 ∧ 4 < 44 ∧ 4 % 4 = 0) ∧ (4 ≤ 43 ∧ 43 < 44 ∧ 43 % 4 ≠ 0) := by decide
/-- Surrogates at the ends of their ranges, and code units just outside. -/
theorem witness_surrogates :
    isLow 0xDC00 = true ∧ isLow 0xDFFF = true ∧ isHigh 0xD800 = true ∧ isHigh 0xDBFF = true ∧ isLow 0xDBFF = false ∧
    isLow 0xE000 = false ∧ ([0x41#8] : List Byte).length % 2 ≠ 0 := by decide
/-- A byte sequence that no text encodes to. -/
theorem witness_no_text : ∀ t : Text, utf16leEncode t ≠ [0x41#8] := by
  intro t h
  have hl := congrArg List.length h
  have heven : ∀ t : Text, (utf16leEncode t).length % 2 = 0 := by
    intro t
    induction t with
    | nil => rfl
    | cons c cs ih =>
      have hc : (scalarBytes c).length % 2 = 0 := by unfold scalarBytes unitBytes; split <;> simp
      simp only [utf16leEncode, List.flatMap_cons, List.length_append] at ih ⊢
      omega
  have := heven t
  simp only [List.length_cons, List.length_nil] at hl
  omega
theorem witness_string : ([] : Text).getLast? ≠ some nul ∧ ['S', 'e'].getLast? ≠ some nul ∧
    (utf16leEncode ['S', 'e']).length ≤ 0xFFFFFFF0 ∧ zeroBlock.toList.length ≠ 0 ∧ zeroBlock.toList.length % 16 = 0 := by
  decide +kernel
theorem witness_bad_line : '-' ∈ ['-', '1'] ∧ isDecimal '-' = false ∧ '-'.toNat ≠ 0x0A := by decide
theorem witness_program :
    parseArg ['x'] = .err .parseError ∧ parseArg ['1'] = .ok [1#8] ∧ decrypt [1#8] = .err .invalidLength ∧
    parseArg secretArg = .ok secretBlock.toList ∧ decrypt secretBlock.toList = .ok ['S', 'e', 'c', 'r', 'e', 't', '1'] ∧
    ([] : List Text).length ≠ 1 := by decide +kernel
/-- Two runs that fail alike and print the same message. -/
theorem witness_same_message :
    programEnd [] = .failure .usageError ∧ programEnd [[], []] = .failure .usageError ∧
    (programMain []).1 = (programMain [[], []]).1 := ⟨rfl, rfl, rfl⟩
/-- V10, a ciphertext whose plaintext does not decode. -/
theorem witness_decode_error :
    decrypt [0x55#8, 0xbf#8, 0x5b#8, 0x3d#8, 0xaa#8, 0x34#8, 0xb0#8, 0x52#8, 0x99#8, 0x8e#8, 0x21#8, 0xdd#8, 0x37#8,
             0x4e#8, 0x18#8, 0x7d#8] = .err .decodeError := by decide +kernel
end Sys2Proof.Tests
end

section
/-! The rules of the step: what each transaction and ENGINE's turn do, one equation per path; that none of them touches
the events still to come; what a step is, by the next event. -/

namespace Sys2Proof.Machine

/-! ### One equation for each path of a transaction and of ENGINE's turn -/

/-- Every transaction ends in a next state (rules R30, R140). -/
theorem exec_next (i : Instr) (s : State) : ∃ t, exec i s = .next t := by
  cases i <;> exact ⟨_, rfl⟩

theorem exec_start_of_not_idle (s : State) (hp : s.phase ≠ .idle) : exec .start s = .next s.flagPerr.noAnswer := by
  simp [exec, execStart, hp]

theorem exec_start_of_badLength (s : State) (hp : s.phase = .idle) (hb : badLength s.len = true) :
    exec .start s = .next s.raiseInvalidLength.noAnswer := by
  simp [exec, execStart, hp, hb]

theorem exec_start_of_goodLength (s : State) (hp : s.phase = .idle) (hb : badLength s.len = false) :
    exec .start s = .next (s.beginMessage engineConfig).noAnswer := by
  simp [exec, execStart, hp, hb]

theorem exec_setlen_of_idle (n : Word) (s : State) (hp : s.phase = .idle) :
    exec (.setlen n) s = .next (s.storeLen n).noAnswer := by
  simp [exec, execSetlen, hp]

theorem exec_setlen_of_not_idle (n : Word) (s : State) (hp : s.phase ≠ .idle) :
    exec (.setlen n) s = .next s.flagPerr.noAnswer := by
  simp [exec, execSetlen, hp]

theorem exec_push_of_irdy (b : Byte) (s : State) (hi : s.irdy = true) :
    exec (.push b) s = .next (s.acceptByte b).noAnswer := by
  simp [exec, execPush, hi]

theorem exec_push_of_not_irdy (b : Byte) (s : State) (hi : s.irdy = false) :
    exec (.push b) s = .next s.flagPerr.noAnswer := by
  simp [exec, execPush, hi]

theorem exec_pop_of_ordy (s : State) (ho : s.ordy = true) :
    exec .pop s = .next (s.deliverByte.answer (zextByte s.nextOut)) := by
  simp [exec, execPop, ho]

theorem exec_pop_of_not_ordy (s : State) (ho : s.ordy = false) : exec .pop s = .next (s.flagPerr.answer 0#32) := by
  simp [exec, execPop, ho]

theorem engineTurn_of_busy (c : Config) (s : State) (hb : s.busy = true) : s.engineTurn c = s.blkStep c := by
  simp [State.engineTurn, hb]

theorem engineTurn_of_not_busy (c : Config) (s : State) (hb : s.busy = false) : s.engineTurn c = s := by
  simp [State.engineTurn, hb]

/-! ### The events still to come -/

/-- A transaction neither reads nor changes the events still to come (log entries 1 and 18). -/
theorem exec_withAgenda (i : Instr) (s t : State) (a : List Event) (h : exec i s = .next t) :
    exec i { s with agenda := a } = .next { t with agenda := a } := by
  cases i with
  | start =>
    rcases execStart_cases s t h with ⟨hp, rfl⟩ | ⟨hp, hb, rfl⟩ | ⟨hp, hb, rfl⟩
    · exact exec_start_of_not_idle { s with agenda := a } hp
    · exact exec_start_of_badLength { s with agenda := a } hp hb
    · exact exec_start_of_goodLength { s with agenda := a } hp hb
  | setlen n =>
    rcases execSetlen_cases n s t h with ⟨hp, rfl⟩ | ⟨hp, rfl⟩
    · exact exec_setlen_of_idle n { s with agenda := a } hp
    · exact exec_setlen_of_not_idle n { s with agenda := a } hp
  | push b =>
    rcases execPush_cases b s t h with ⟨hi, rfl⟩ | ⟨hi, rfl⟩
    · exact exec_push_of_irdy b { s with agenda := a } hi
    · exact exec_push_of_not_irdy b { s with agenda := a } hi
  | pop =>
    rcases execPop_cases s t h with ⟨ho, rfl⟩ | ⟨ho, rfl⟩
    · exact exec_pop_of_ordy { s with agenda := a } ho
    · exact exec_pop_of_not_ordy { s with agenda := a } ho
  | illegal d _ => cases h; cases d <;> rfl
  | clear | ctrlrsvd _ | stat | getlen | geticnt | getocnt => cases h; rfl

/-- ENGINE's turn neither reads nor changes the events still to come. -/
theorem engineTurn_withAgenda (c : Config) (s : State) (a : List Event) :
    State.engineTurn c { s with agenda := a } = { s.engineTurn c with agenda := a } := by
  rcases engineTurn_cases c s with ⟨hb, ht⟩ | ⟨hb, ht⟩
  · rw [ht]; exact engineTurn_of_busy c { s with agenda := a } hb
  · rw [ht]; exact engineTurn_of_not_busy c { s with agenda := a } hb

/-- Performing a transaction is what `exec` does on the state without events to come. -/
theorem exec_eq_perform (tw : TWord) (s : State) :
    exec (decode tw) { s with agenda := [] } = .next (s.perform (.host tw)) := by
  obtain ⟨t, ht⟩ := exec_next (decode tw) { s with agenda := [] }
  rw [ht, perform_host s t tw ht]

/-- A step with event e to come performs e and leaves the later events (rules R10, R39). -/
theorem step_cons (s : State) (e : Event) (rest : List Event) :
    step { s with agenda := e :: rest } = .next { s.perform e with agenda := rest } := by
  cases e with
  | engine => exact congrArg _ (engineTurn_withAgenda engineConfig { s with agenda := [] } rest)
  | reset => rfl
  | host tw => exact exec_withAgenda _ { s with agenda := [] } _ rest (exec_eq_perform tw s)

/-- A run of one more step goes on from where the first step leads. -/
theorem core_run_succ (M : Host.Core) (k : Nat) (s t : M.State) (h : M.step s = .next t) :
    M.run (k + 1) s = M.run k t := by
  simp [Host.Core.run, h]

/-- Settles O19, by induction on the events to come. -/
theorem runPerformsEventsInOrder : Obligations.RunPerformsEventsInOrder := by
  intro s es
  induction es generalizing s with
  | nil => rfl
  | cons e es ih => exact (core_run_succ core es.length _ _ (step_cons s e es)).trans (ih (s.perform e))

/-! ### What a step does, by the next event -/

/-- A word numbered as the opcode table numbers it is itself (rule R46). -/
theorem tableWord_toNat (tw : TWord) : tableWord 48 tw.toNat = tw := by
  have h : tw.toNat < 2 ^ 48 := by have := tw.isLt; omega
  rw [tableWord, Nat.mod_eq_of_lt h, BitVec.ofNat_toNat, BitVec.setWidth_eq]

/-- The low byte of the data of a CTRL or DIN write (rules R47, R48). -/
theorem twLow_packTW_byte (d : Dir) (a : Offset) (b : Byte) : twLow (packTW d a (b.setWidth 32)) = b := by
  rw [twLow_packTW, BitVec.setWidth_setWidth_of_le b (by decide), BitVec.setWidth_eq]

/-- Decoding inverts encoding on well-formed instructions (rules R49, R53). -/
theorem decode_encode (i : Instr) (h : i.wf = true) : decode (encode i) = i := by
  rw [decode_fields]
  cases i with
  | start | clear | stat | getlen | pop | geticnt | getocnt => decide
  | ctrlrsvd c =>
    have hc : c ≠ 0x01#8 ∧ c ≠ 0x02#8 := by simpa [Instr.wf, reservedCmd] using h
    simp [encode, twDir_packTW, twAddr_packTW, twLow_packTW_byte, hc]
  | setlen n => simp [encode, twDir_packTW, twAddr_packTW, twData_packTW]
  | push b => simp [encode, twDir_packTW, twAddr_packTW, twLow_packTW_byte]
  | illegal d a =>
    have ha : mappedAccess d a = false := by simpa [Instr.wf] using h
    cases d <;> simp_all [mappedAccess, encode, twDir_packTW, twAddr_packTW]

/-- A step whose next event is a transaction word is `exec` of what the word decodes to (rules R30, R39). -/
theorem step_host (s : State) (tw : TWord) (rest : List Event) (h : s.agenda = .host tw :: rest) :
    step s = exec (decode tw) { s with agenda := rest } := by
  simp [step, h]

theorem step_engine (s : State) (rest : List Event) (h : s.agenda = .engine :: rest) :
    step s = .next (State.engineTurn engineConfig { s with agenda := rest }) := by
  simp [step, h]

theorem step_reset (s : State) (rest : List Event) (h : s.agenda = .reset :: rest) :
    step s = .next (State.resetEvent { s with agenda := rest }) := by
  simp [step, h]

theorem step_nil (s : State) (h : s.agenda = []) : step s = .next (s.engineTurn engineConfig) := by
  simp [step, h]

/-- Settles O12: a placed word decodes to the instruction it was encoded from. -/
theorem stepRunsDecodedTransaction : Obligations.StepRunsDecodedTransaction := by
  refine ⟨step_host, fun s i hi => ?_⟩
  rw [step_host (s.withFetchWord 48 (encode i).toNat) _ s.agenda rfl, tableWord_toNat, decode_encode i hi]
  rfl

/-- Settles O33, an equation for each kind of next event. -/
theorem stepRunsEngineAndReset : Obligations.StepRunsEngineAndReset :=
  ⟨step_engine, step_reset, step_nil⟩

/-- Settles O20: the reset state is a literal, and both the reset event and CLEAR put it. -/
theorem resetEventSetsEveryElement : Obligations.ResetEventSetsEveryElement := by
  refine ⟨⟨rfl, rfl, rfl, rfl, rfl, rfl, rfl, rfl, rfl, rfl, rfl⟩, by decide, by decide, by decide, by decide, ?_, ?_⟩
  · exact fun s rest h => ⟨_, step_reset s rest h⟩
  · exact fun s => ⟨_, rfl⟩

end Sys2Proof.Machine
end

section
/-! The invariants a to h of rule R27: what they come to in each value of STATE, and that each shared operation keeps
them where the machine performs it. -/

namespace Sys2Proof.Machine

/-! ### The invariants by STATE -/

/-- Performing the block step disables it (rule R27 item g). -/
theorem busy_blkStep (c : Config) (s : State) : (s.blkStep c).busy = false := by
  simp [State.busy]

/-- The data registers, the counters and the stored flag at the values of IDLE and ERR, up to ERRCODE (rule R27 items a
and b). -/
structure State.Blank (s : State) : Prop where
  icnt : s.icnt = 0#32
  ocnt : s.ocnt = 0#32
  ifill : s.ifill = 0
  orem : s.orem = 0
  prev : s.prev = zeroBlock
  ibuf : s.ibuf = zeroBlock
  obuf : s.obuf = zeroBlock

/-- The counters of a message that is not yet delivered (rule R27 items c and e): OCNT has not reached LEN. -/
structure State.InMessage (s : State) : Prop where
  errcode : s.errcode = 0#4
  lenWhole : s.len.toNat % 16 = 0
  steppedWhole : (s.ocnt.toNat + s.orem.val) % 16 = 0
  filled : s.ifill.val + (s.ocnt.toNat + s.orem.val) = s.icnt.toNat
  accepted : s.icnt.toNat ≤ s.len.toNat
  unfinished : s.ocnt.toNat < s.len.toNat

theorem inv_iff_of_idle (s : State) (hp : s.phase = .idle) : s.Inv ↔ s.Blank ∧ s.errcode = 0#4 := by
  constructor
  · intro h
    obtain ⟨hicnt, hocnt, hifill, horem, herr, hprev, hibuf, hobuf⟩ := h.idle hp
    exact ⟨⟨hicnt, hocnt, hifill, horem, hprev, hibuf, hobuf⟩, herr⟩
  · rintro ⟨⟨hicnt, hocnt, hifill, horem, hprev, hibuf, hobuf⟩, herr⟩
    exact {
      idle := fun _ => ⟨hicnt, hocnt, hifill, horem, herr, hprev, hibuf, hobuf⟩
      err := by simp [hp]
      message := by simp [hp]
      place := by simp [hp]
      finished := by simp [hp]
      outInRun := by simp [horem]
      oneStep := fun _ => busy_blkStep _ s
      noDeadEnd := by simp [hp] }

theorem inv_iff_of_err (s : State) (hp : s.phase = .err) :
    s.Inv ↔ s.Blank ∧ s.errcode = 1#4 ∧ badLength s.len = true := by
  constructor
  · intro h
    obtain ⟨herr, hicnt, hocnt, hifill, horem, hprev, hibuf, hobuf, hlen⟩ := h.err hp
    exact ⟨⟨hicnt, hocnt, hifill, horem, hprev, hibuf, hobuf⟩, herr, hlen⟩
  · rintro ⟨⟨hicnt, hocnt, hifill, horem, hprev, hibuf, hobuf⟩, herr, hlen⟩
    exact {
      idle := by simp [hp]
      err := fun _ => ⟨herr, hicnt, hocnt, hifill, horem, hprev, hibuf, hobuf, hlen⟩
      message := by simp [hp]
      place := by simp [hp]
      finished := by simp [hp]
      outInRun := by simp [horem]
      oneStep := fun _ => busy_blkStep _ s
      noDeadEnd := by simp [hp] }

/-- In a message something is always to be done: the proof sketch of rule R27 item h. -/
theorem State.InMessage.ready {s : State} (hp : s.phase = .run) (h : s.InMessage) :
    s.irdy = true ∨ s.ordy = true ∨ s.busy = true := by
  obtain ⟨_, hlen, hwhole, hfill, hacc, hunf⟩ := h
  simp only [irdy_iff, ordy_iff, busy_iff, hp, true_and]
  omega

/-- In RUN the invariants say that the message is under way; that OCNT < LEN is what item h adds to item c. -/
theorem inv_iff_of_run (s : State) (hp : s.phase = .run) : s.Inv ↔ s.InMessage := by
  constructor
  · intro h
    obtain ⟨herr, hpos, hlen, hout, hacc, hwhole, hfill⟩ := h.message (.inl hp)
    have hready := h.noDeadEnd hp
    simp only [irdy_iff, ordy_iff, busy_iff, hp, true_and] at hready
    exact ⟨herr, hlen, hwhole, hfill, hacc, by omega⟩
  · intro h
    have hready := h.ready hp
    obtain ⟨herr, hlen, hwhole, hfill, hacc, hunf⟩ := h
    exact {
      idle := by simp [hp]
      err := by simp [hp]
      message := fun _ => ⟨herr, by omega, hlen, by omega, hacc, hwhole, hfill⟩
      place := fun _ => by omega
      finished := by simp [hp]
      outInRun := fun _ => hp
      oneStep := fun _ => busy_blkStep _ s
      noDeadEnd := fun _ => hready }

/-- In DONE the counters stand at the end of a message of whole blocks (rule R27 items c and e). -/
theorem inv_iff_of_done (s : State) (hp : s.phase = .done) :
    s.Inv ↔ s.errcode = 0#4 ∧ badLength s.len = false ∧ s.ocnt = s.len ∧ s.icnt = s.len ∧ s.ifill = 0 ∧ s.orem = 0 := by
  rw [badLength_false_iff]
  constructor
  · intro h
    obtain ⟨herr, hpos, hlen, -⟩ := h.message (.inr hp)
    exact ⟨herr, ⟨hpos, hlen⟩, h.finished hp⟩
  · rintro ⟨herr, ⟨hpos, hlen⟩, hocnt, hicnt, hifill, horem⟩
    exact {
      idle := by simp [hp]
      err := by simp [hp]
      message := by simp [herr, hocnt, hicnt, hifill, horem, hpos, hlen]
      place := by simp [horem]
      finished := fun _ => ⟨hocnt, hicnt, hifill, horem⟩
      outInRun := by simp [horem]
      oneStep := fun _ => busy_blkStep _ s
      noDeadEnd := by simp [hp] }

/-! ### The operations that touch no invariant -/

/-- No invariant speaks of PERR, of the port or of the events to come. -/
theorem State.Inv.withPort {s : State} (h : s.Inv) (p : Bool) (r : Option Word) (a : List Event) :
    State.Inv { s with perr := p, rdata := r, agenda := a } where
  idle := h.idle
  err := h.err
  message := h.message
  place := h.place
  finished := h.finished
  outInRun := h.outInRun
  oneStep := h.oneStep
  noDeadEnd := h.noDeadEnd

theorem State.Inv.answer {s : State} (h : s.Inv) (v : Word) : (s.answer v).Inv := h.withPort s.perr (some v) s.agenda
theorem State.Inv.noAnswer {s : State} (h : s.Inv) : s.noAnswer.Inv := h.withPort s.perr none s.agenda
theorem State.Inv.flagPerr {s : State} (h : s.Inv) : s.flagPerr.Inv := h.withPort true s.rdata s.agenda
theorem State.Inv.withAgenda {s : State} (h : s.Inv) (a : List Event) : State.Inv { s with agenda := a } :=
  h.withPort s.perr s.rdata a

/-! ### The operations that move the engine -/

theorem inv_reset : State.reset.Inv :=
  (inv_iff_of_idle _ rfl).mpr ⟨⟨rfl, rfl, rfl, rfl, rfl, rfl, rfl⟩, rfl⟩

theorem inv_clearEngine (s : State) : s.clearEngine.Inv := inv_reset.withAgenda s.agenda

theorem State.Inv.raiseInvalidLength {s : State} (h : s.Inv) (hp : s.phase = .idle) (hb : badLength s.len = true) :
    s.raiseInvalidLength.Inv := by
  obtain ⟨⟨hicnt, hocnt, hifill, horem, hprev, hibuf, hobuf⟩, -⟩ := (inv_iff_of_idle s hp).mp h
  exact (inv_iff_of_err _ rfl).mpr ⟨⟨hicnt, hocnt, hifill, horem, hprev, hibuf, hobuf⟩, rfl, hb⟩

theorem State.Inv.beginMessage {s : State} (h : s.Inv) (c : Config) (hp : s.phase = .idle)
    (hb : badLength s.len = false) : (s.beginMessage c).Inv := by
  obtain ⟨-, herr⟩ := (inv_iff_of_idle s hp).mp h
  obtain ⟨hpos, hlen⟩ := (badLength_false_iff s.len).mp hb
  exact (inv_iff_of_run _ rfl).mpr ⟨herr, hlen, rfl, rfl, Nat.zero_le _, hpos⟩

theorem State.Inv.storeLen {s : State} (h : s.Inv) (n : Word) (hp : s.phase = .idle) : (s.storeLen n).Inv := by
  obtain ⟨⟨hicnt, hocnt, hifill, horem, hprev, hibuf, hobuf⟩, herr⟩ := (inv_iff_of_idle s hp).mp h
  exact (inv_iff_of_idle (s.storeLen n) hp).mpr ⟨⟨hicnt, hocnt, hifill, horem, hprev, hibuf, hobuf⟩, herr⟩

/-- A counter below another does not wrap when it moves on by one (rule R14). -/
theorem toNat_add_one_of_lt {m n : Word} (h : m.toNat < n.toNat) : (m + 1#32).toNat = m.toNat + 1 := by
  bv_omega

theorem State.Inv.acceptByte {s : State} (h : s.Inv) (b : Byte) (hi : s.irdy = true) : (s.acceptByte b).Inv := by
  obtain ⟨hp, hroom, hmore⟩ := (irdy_iff s).mp hi
  obtain ⟨herr, hlen, hwhole, hfill, hacc, hunf⟩ := (inv_iff_of_run s hp).mp h
  have hifill := acceptByte_ifill_val s b hroom
  have hicnt : (s.acceptByte b).icnt.toNat = s.icnt.toNat + 1 := toNat_add_one_of_lt hmore
  refine (inv_iff_of_run (s.acceptByte b) hp).mpr ⟨herr, hlen, hwhole, ?_, ?_, hunf⟩
  · rw [hifill, hicnt, State.acceptByte_ocnt, State.acceptByte_orem]; omega
  · rw [hicnt, State.acceptByte_len]; omega

/-- The delivery of a byte goes on with the message or, with byte LEN - 1, ends it (rule R67). -/
theorem State.Inv.deliverByte {s : State} (h : s.Inv) (ho : s.ordy = true) : s.deliverByte.Inv := by
  have hpos := (ordy_iff s).mp ho
  have hp := h.outInRun hpos
  obtain ⟨herr, hlen, hwhole, hfill, hacc, hunf⟩ := (inv_iff_of_run s hp).mp h
  have horem := deliverByte_orem_val s hpos
  have hocnt : s.deliverByte.ocnt.toNat = s.ocnt.toNat + 1 := toNat_add_one_of_lt hunf
  rcases phaseAfterPop_cases s with ⟨hlast, hphase⟩ | ⟨hlast, hphase⟩
  · have hend : s.ocnt.toNat + 1 = s.len.toNat := hocnt.symm.trans (congrArg BitVec.toNat hlast)
    refine (inv_iff_of_done _ hphase).mpr ⟨herr, (badLength_false_iff _).mpr ⟨?_, hlen⟩, hlast, ?_, ?_, ?_⟩
    · rw [State.deliverByte_len]; omega
    · exact BitVec.eq_of_toNat_eq (by rw [State.deliverByte_icnt, State.deliverByte_len]; omega)
    · exact Fin.ext (by rw [State.deliverByte_ifill, Fin.val_zero]; omega)
    · exact Fin.ext (by rw [horem, Fin.val_zero]; omega)
  · have hnot : s.deliverByte.ocnt.toNat ≠ s.len.toNat := fun he => hlast (BitVec.eq_of_toNat_eq he)
    refine (inv_iff_of_run _ (hphase.trans hp)).mpr ⟨herr, hlen, ?_, ?_, hacc, ?_⟩
    · rw [hocnt, horem]; omega
    · rw [hocnt, horem, State.deliverByte_ifill, State.deliverByte_icnt]; omega
    · rw [State.deliverByte_len]; omega

theorem State.Inv.blkStep {s : State} (h : s.Inv) (c : Config) (hb : s.busy = true) : (s.blkStep c).Inv := by
  obtain ⟨hp, hfull, hread⟩ := (busy_iff s).mp hb
  obtain ⟨herr, hlen, hwhole, hfill, hacc, hunf⟩ := (inv_iff_of_run s hp).mp h
  refine (inv_iff_of_run (s.blkStep c) hp).mpr ⟨herr, hlen, ?_, ?_, hacc, hunf⟩
  · simp only [State.blkStep_ocnt, State.blkStep_orem]; omega
  · simp only [State.blkStep_ocnt, State.blkStep_orem, State.blkStep_ifill, State.blkStep_icnt]; omega

/-! ### Every step -/

theorem State.Inv.engineTurn {s : State} (h : s.Inv) (c : Config) : (s.engineTurn c).Inv := by
  rcases engineTurn_cases c s with ⟨hb, ht⟩ | ⟨-, ht⟩
  · rw [ht]; exact h.blkStep c hb
  · rw [ht]; exact h

/-- Every transaction keeps the invariants (rule R27). -/
theorem State.Inv.exec {i : Instr} {s t : State} (h : s.Inv) (ht : exec i s = .next t) : t.Inv := by
  cases i with
  | start =>
    rcases execStart_cases s t ht with ⟨-, rfl⟩ | ⟨hp, hb, rfl⟩ | ⟨hp, hb, rfl⟩
    · exact h.flagPerr.noAnswer
    · exact (h.raiseInvalidLength hp hb).noAnswer
    · exact (h.beginMessage engineConfig hp hb).noAnswer
  | clear => cases ht; exact (inv_clearEngine s).noAnswer
  | ctrlrsvd _ => cases ht; exact h.flagPerr.noAnswer
  | setlen n =>
    rcases execSetlen_cases n s t ht with ⟨hp, rfl⟩ | ⟨-, rfl⟩
    · exact (h.storeLen n hp).noAnswer
    · exact h.flagPerr.noAnswer
  | push b =>
    rcases execPush_cases b s t ht with ⟨hi, rfl⟩ | ⟨-, rfl⟩
    · exact (h.acceptByte b hi).noAnswer
    · exact h.flagPerr.noAnswer
  | pop =>
    rcases execPop_cases s t ht with ⟨ho, rfl⟩ | ⟨-, rfl⟩
    · exact (h.deliverByte ho).answer _
    · exact h.flagPerr.answer _
  | stat | getlen | geticnt | getocnt => cases ht; exact h.answer _
  | illegal d _ =>
    cases d with
    | read => cases ht; exact h.flagPerr.answer _
    | write => cases ht; exact h.flagPerr.noAnswer

/-- Settles O25: each kind of event keeps the invariants. -/
theorem everyStepKeepsTheInvariants : Obligations.EveryStepKeepsTheInvariants := by
  intro s t h ht
  rcases step_cases s t ht with ⟨-, rfl⟩ | ⟨rest, -, rfl⟩ | ⟨rest, -, rfl⟩ | ⟨tw, rest, -, ht⟩
  · exact h.engineTurn engineConfig
  · exact (h.withAgenda rest).engineTurn engineConfig
  · exact inv_clearEngine _
  · exact (h.withAgenda rest).exec ht

/-- Settles O26: in the reset state every stream and every buffer part that is compared is empty. -/
theorem resetHasTheInvariants : Obligations.ResetHasTheInvariants := by
  refine ⟨inv_reset, ?_⟩
  exact {
    inv := inv_reset
    sentCount := rfl
    gotCount := rfl
    delivered := rfl
    unread := rfl
    unstepped := rfl
    chaining := by simp [State.reset] }

/-! ### STATUS -/

/-- With no input wanted, no output and no block step, STATUS is STATE, PERR and ERRCODE (rule R18). -/
theorem statusWord_of_quiet (s : State) (hi : s.irdy = false) (ho : s.ordy = false) (hb : s.busy = false) :
    s.statusWord = (phaseCode s.phase).setWidth 32 ||| (flagBit s.perr <<< 5) ||| (s.errcode.setWidth 32 <<< 8) := by
  simp [State.statusWord, hi, ho, hb, flagBit]

/-- Outside RUN no derived flag is up (rule R27 item f). -/
theorem State.Inv.quiet {s : State} (h : s.Inv) (hp : s.phase ≠ .run) :
    s.irdy = false ∧ s.ordy = false ∧ s.busy = false := by
  have horem : ¬ 0 < s.orem.val := fun ho => hp (h.outInRun ho)
  simp [State.irdy, State.ordy, State.busy, hp, horem]

theorem statusWord_of_run (s : State) (hp : s.phase = .run) (herr : s.errcode = 0#4) :
    s.statusWord = 1#32 ||| (flagBit s.irdy <<< 2) ||| (flagBit s.ordy <<< 3) ||| (flagBit s.busy <<< 4) |||
      (flagBit s.perr <<< 5) := by
  simp [State.statusWord, hp, herr, phaseCode]

/-- A block step is pending only when the host can do nothing (rule R15). -/
theorem flags_of_busy (s : State) (hb : s.busy = true) : s.irdy = false ∧ s.ordy = false := by
  obtain ⟨-, hfull, hread⟩ := (busy_iff s).mp hb
  simp [State.irdy, State.ordy, hfull, hread]

/-- The derived flags of RUN: the four combinations that rule R18 lists. -/
theorem State.Inv.run_flags {s : State} (h : s.Inv) (hp : s.phase = .run) :
    (s.irdy = true ∧ s.ordy = false ∧ s.busy = false) ∨ (s.irdy = true ∧ s.ordy = true ∧ s.busy = false) ∨
    (s.irdy = false ∧ s.ordy = true ∧ s.busy = false) ∨ (s.irdy = false ∧ s.ordy = false ∧ s.busy = true) := by
  cases hb : s.busy with
  | true =>
    obtain ⟨hi, ho⟩ := flags_of_busy s hb
    simp [hi, ho]
  | false =>
    have hready := h.noDeadEnd hp
    rw [hb] at hready
    cases hi : s.irdy
    · simpa [hi] using hready
    · cases s.ordy <;> simp

/-- Settles O28: STATE fixes ERRCODE by the invariants, and the derived flags but for the four cases of RUN. -/
theorem statusValuesAHostCanMeet : Obligations.StatusValuesAHostCanMeet := by
  intro s h
  refine ⟨fun hp => ?_, fun hp => ?_, fun hp => ?_, fun hp => ?_⟩
  · obtain ⟨hi, ho, hb⟩ := h.quiet (by simp [hp])
    obtain ⟨-, herr⟩ := (inv_iff_of_idle s hp).mp h
    rw [statusWord_of_quiet s hi ho hb, hp, herr]
    cases s.perr <;> rfl
  · obtain ⟨hi, ho, hb⟩ := h.quiet (by simp [hp])
    obtain ⟨-, herr, -⟩ := (inv_iff_of_err s hp).mp h
    rw [statusWord_of_quiet s hi ho hb, hp, herr]
    cases s.perr <;> rfl
  · obtain ⟨hi, ho, hb⟩ := h.quiet (by simp [hp])
    obtain ⟨herr, -⟩ := (inv_iff_of_done s hp).mp h
    rw [statusWord_of_quiet s hi ho hb, hp, herr]
    cases s.perr <;> rfl
  · obtain ⟨herr, -⟩ := (inv_iff_of_run s hp).mp h
    rw [statusWord_of_run s hp herr]
    rcases h.run_flags hp with ⟨hi, ho, hb⟩ | ⟨hi, ho, hb⟩ | ⟨hi, ho, hb⟩ | ⟨hi, ho, hb⟩ <;> rw [hi, ho, hb]
    · exact ⟨0x005#32, by decide, by cases s.perr <;> rfl⟩
    · exact ⟨0x00D#32, by decide, by cases s.perr <;> rfl⟩
    · exact ⟨0x009#32, by decide, by cases s.perr <;> rfl⟩
    · exact ⟨0x011#32, by decide, by cases s.perr <;> rfl⟩

end Sys2Proof.Machine
end

section
/-! What is left in PREV outside RUN, in IBUF beyond its valid bytes and in OBUF before the unread ones is invisible
(rules R26, R168): `SameToHost` is a bisimulation for the events of the machine. -/

namespace Sys2Proof.Machine

/-! ### What two states that a host cannot tell apart agree on -/

theorem SameToHost.irdy {s t : State} (h : SameToHost s t) : s.irdy = t.irdy := by
  simp only [State.irdy, h.phase, h.ifill, h.icnt, h.len]

theorem SameToHost.ordy {s t : State} (h : SameToHost s t) : s.ordy = t.ordy := by
  simp only [State.ordy, h.orem]

theorem SameToHost.busy {s t : State} (h : SameToHost s t) : s.busy = t.busy := by
  simp only [State.busy, h.phase, h.ifill, h.orem]

theorem SameToHost.statusWord {s t : State} (h : SameToHost s t) : s.statusWord = t.statusWord := by
  simp only [State.statusWord, h.phase, h.irdy, h.ordy, h.busy, h.perr, h.errcode]

/-- The next plaintext byte is an unread one. -/
theorem SameToHost.nextOut {s t : State} (h : SameToHost s t) : s.nextOut = t.nextOut := by
  simp only [State.nextOut, ← h.orem, h.obuf _ le_rfl]

theorem SameToHost.phaseAfterPop {s t : State} (h : SameToHost s t) : s.phaseAfterPop = t.phaseAfterPop := by
  simp only [State.phaseAfterPop, h.ocnt, h.len, h.phase]

/-! ### The operations -/

theorem SameToHost.withAgenda {s t : State} (h : SameToHost s t) (a : List Event) :
    SameToHost { s with agenda := a } { t with agenda := a } :=
  { h with agenda := rfl }

theorem SameToHost.answer {s t : State} (h : SameToHost s t) {v w : Word} (hv : v = w) :
    SameToHost (s.answer v) (t.answer w) :=
  { h with rdata := congrArg some hv }

theorem SameToHost.noAnswer {s t : State} (h : SameToHost s t) : SameToHost s.noAnswer t.noAnswer :=
  { h with rdata := rfl }

theorem SameToHost.flagPerr {s t : State} (h : SameToHost s t) : SameToHost s.flagPerr t.flagPerr :=
  { h with perr := rfl }

theorem SameToHost.storeLen {s t : State} (h : SameToHost s t) (n : Word) :
    SameToHost (s.storeLen n) (t.storeLen n) :=
  { h with len := rfl }

theorem SameToHost.refl (s : State) : SameToHost s s := by
  constructor <;> intros <;> rfl

theorem SameToHost.clearEngine {s t : State} (h : SameToHost s t) : SameToHost s.clearEngine t.clearEngine := by
  rw [State.clearEngine, State.clearEngine, h.agenda]
  exact .refl _

theorem SameToHost.raiseInvalidLength {s t : State} (h : SameToHost s t) :
    SameToHost s.raiseInvalidLength t.raiseInvalidLength :=
  { h with phase := rfl, errcode := rfl, prev := by simp }

/-- START takes PREV anew and leaves no byte of IBUF and OBUF valid. -/
theorem SameToHost.beginMessage {s t : State} (h : SameToHost s t) (c : Config) :
    SameToHost (s.beginMessage c) (t.beginMessage c) :=
  { h with
    phase := rfl
    icnt := rfl
    ocnt := rfl
    ifill := rfl
    orem := rfl
    prev := fun _ => rfl
    ibuf := fun i hi => absurd hi (Nat.not_lt_zero i)
    obuf := fun i hi => (byteAt_of_ge _ i hi).trans (byteAt_of_ge _ i hi).symm }

/-- An accepted byte becomes the next valid byte of IBUF. -/
theorem SameToHost.acceptByte {s t : State} (h : SameToHost s t) (b : Byte) (hi : s.irdy = true) :
    SameToHost (s.acceptByte b) (t.acceptByte b) := by
  obtain ⟨-, hroom, -⟩ := (irdy_iff s).mp hi
  refine { h with icnt := congrArg (· + 1#32) h.icnt, ifill := congrArg (· + 1) h.ifill, ibuf := fun i hlt => ?_ }
  rw [acceptByte_ifill_val s b hroom] at hlt
  simp only [State.acceptByte_ibuf, State.ibufWith, ← h.ifill, byteAt_setByte _ _ _ _ hroom]
  split_ifs with heq
  · rfl
  · exact h.ibuf i (by omega)

/-- The delivery of a byte leaves fewer bytes unread. -/
theorem SameToHost.deliverByte {s t : State} (h : SameToHost s t) (ho : s.ordy = true) :
    SameToHost s.deliverByte t.deliverByte := by
  have horem := deliverByte_orem_val s ((ordy_iff s).mp ho)
  refine { h with
    phase := h.phaseAfterPop
    ocnt := congrArg (· + 1#32) h.ocnt
    orem := congrArg (· - 1) h.orem
    prev := fun hp => ?_
    obuf := fun i hi => h.obuf i (by omega) }
  rcases phaseAfterPop_cases s with ⟨-, hphase⟩ | ⟨-, hphase⟩
  · cases hphase.symm.trans hp
  · exact h.prev (hphase.symm.trans hp)

/-- A full IBUF has no residue, and in RUN neither has PREV, so that the block step makes the same OBUF. -/
theorem SameToHost.blkStep {s t : State} (h : SameToHost s t) (c : Config) (hb : s.busy = true) :
    SameToHost (s.blkStep c) (t.blkStep c) := by
  obtain ⟨hp, hfull, -⟩ := (busy_iff s).mp hb
  have hibuf : s.ibuf = t.ibuf := block_ext _ _ fun i hi => h.ibuf i (hfull ▸ hi)
  exact { h with
    ifill := rfl
    orem := rfl
    prev := fun _ => hibuf
    ibuf := fun i hi => absurd hi (Nat.not_lt_zero i)
    obuf := fun i _ => by simp only [State.blkStep_obuf, hibuf, h.prev hp] }

/-! ### The events -/

theorem SameToHost.engineTurn {s t : State} (h : SameToHost s t) (c : Config) :
    SameToHost (s.engineTurn c) (t.engineTurn c) := by
  cases hb : s.busy with
  | true => rw [engineTurn_of_busy c s hb, engineTurn_of_busy c t (h.busy ▸ hb)]; exact h.blkStep c hb
  | false => rw [engineTurn_of_not_busy c s hb, engineTurn_of_not_busy c t (h.busy ▸ hb)]; exact h

/-- Every transaction answers alike and keeps two states that a host cannot tell apart so. -/
theorem SameToHost.exec {s t s' t' : State} (h : SameToHost s t) (i : Instr)
    (hs : exec i s = .next s') (ht : exec i t = .next t') : SameToHost s' t' := by
  cases i with
  | start =>
    rcases execStart_cases s s' hs with ⟨hp, rfl⟩ | ⟨hp, hb, rfl⟩ | ⟨hp, hb, rfl⟩
    · cases (exec_start_of_not_idle t (h.phase ▸ hp)).symm.trans ht
      exact h.flagPerr.noAnswer
    · cases (exec_start_of_badLength t (h.phase ▸ hp) (h.len ▸ hb)).symm.trans ht
      exact h.raiseInvalidLength.noAnswer
    · cases (exec_start_of_goodLength t (h.phase ▸ hp) (h.len ▸ hb)).symm.trans ht
      exact (h.beginMessage engineConfig).noAnswer
  | clear => cases hs; cases ht; exact h.clearEngine.noAnswer
  | ctrlrsvd _ => cases hs; cases ht; exact h.flagPerr.noAnswer
  | setlen n =>
    rcases execSetlen_cases n s s' hs with ⟨hp, rfl⟩ | ⟨hp, rfl⟩
    · cases (exec_setlen_of_idle n t (h.phase ▸ hp)).symm.trans ht
      exact (h.storeLen n).noAnswer
    · cases (exec_setlen_of_not_idle n t (h.phase ▸ hp)).symm.trans ht
      exact h.flagPerr.noAnswer
  | push b =>
    rcases execPush_cases b s s' hs with ⟨hi, rfl⟩ | ⟨hi, rfl⟩
    · cases (exec_push_of_irdy b t (h.irdy ▸ hi)).symm.trans ht
      exact (h.acceptByte b hi).noAnswer
    · cases (exec_push_of_not_irdy b t (h.irdy ▸ hi)).symm.trans ht
      exact h.flagPerr.noAnswer
  | stat => cases hs; cases ht; exact h.answer h.statusWord
  | getlen => cases hs; cases ht; exact h.answer h.len
  | pop =>
    rcases execPop_cases s s' hs with ⟨ho, rfl⟩ | ⟨ho, rfl⟩
    · cases (exec_pop_of_ordy t (h.ordy ▸ ho)).symm.trans ht
      exact (h.deliverByte ho).answer (congrArg zextByte h.nextOut)
    · cases (exec_pop_of_not_ordy t (h.ordy ▸ ho)).symm.trans ht
      exact h.flagPerr.answer rfl
  | geticnt => cases hs; cases ht; exact h.answer h.icnt
  | getocnt => cases hs; cases ht; exact h.answer h.ocnt
  | illegal d _ =>
    cases d with
    | read => cases hs; cases ht; exact h.flagPerr.answer rfl
    | write => cases hs; cases ht; exact h.flagPerr.noAnswer

theorem SameToHost.perform {s t : State} (h : SameToHost s t) (e : Event) : SameToHost (s.perform e) (t.perform e) := by
  cases e with
  | engine => rw [perform_engine, perform_engine]; exact (h.withAgenda []).engineTurn engineConfig
  | reset => rw [perform_reset, perform_reset]; exact .refl _
  | host tw => exact (h.withAgenda []).exec (decode tw) (exec_eq_perform tw s) (exec_eq_perform tw t)

/-- Settles O40, by induction on the events: each is answered alike, and nothing but residue differs after it. -/
theorem residueIsInvisible : Obligations.ResidueIsInvisible := by
  intro s t es h
  induction es generalizing s t with
  | nil => exact ⟨rfl, h⟩
  | cons e es ih =>
    have hstep := h.perform e
    obtain ⟨hanswers, hsame⟩ := ih _ _ hstep
    exact ⟨by rw [State.answers, State.answers, hstep.rdata, hanswers], hsame⟩

end Sys2Proof.Machine
end

section
/-! Cutting a byte sequence into blocks, and CBC decryption, over a concatenation: what the block step adds to the
plaintext of the blocks before it (rules R7, R81, R82). -/

namespace Sys2Proof.Machine

/-! ### Blocks and lists of bytes -/

/-- A block is made of the first sixteen bytes alone. -/
theorem blockOfList_take (l : List Byte) : blockOfList (l.take 16) = blockOfList l := by
  apply block_ext
  intro i hi
  rw [byteAt_blockOfList _ i hi, byteAt_blockOfList _ i hi]
  simp [hi]

theorem blockOfList_toList (b : Block) : blockOfList b.toList = b := by
  apply block_ext
  intro i hi
  rw [byteAt_blockOfList _ i hi, byteAt_eq_getElem b i hi]
  simp [hi]

/-- The bytes of a block from index i on, the first one apart. -/
theorem drop_toList_eq_cons (b : Block) (i : Nat) (h : i < 16) :
    b.toList.drop i = byteAt b i :: b.toList.drop (i + 1) := by
  rw [List.drop_eq_getElem_cons (by simpa using h), byteAt_eq_getElem b i h, Vector.getElem_toList]

/-- Writing byte i extends the first i bytes by it. -/
theorem take_toList_setByte (b : Block) (i : Nat) (v : Byte) (h : i < 16) :
    (setByte b i v).toList.take (i + 1) = b.toList.take i ++ [v] := by
  simp [setByte, List.take_add_one, List.take_set_of_le, h]

/-! ### Cutting into blocks -/

theorem length_takeBlocks (n : Nat) (l : List Byte) : (takeBlocks n l).length = n := by
  induction n generalizing l with
  | zero => rfl
  | succ n ih => rw [takeBlocks, List.length_cons, ih]

theorem takeBlocks_append (n m : Nat) (l r : List Byte) (h : l.length = 16 * n) :
    takeBlocks (n + m) (l ++ r) = takeBlocks n l ++ takeBlocks m r := by
  induction n generalizing l with
  | zero => simp [List.length_eq_zero_iff.mp h, takeBlocks]
  | succ n ih =>
    have hl : 16 ≤ l.length := by omega
    rw [Nat.succ_add, takeBlocks, takeBlocks, List.take_append_of_le_length hl, List.drop_append_of_le_length hl,
      ih _ (by rw [List.length_drop]; omega), List.cons_append]

theorem blocksOf_append (l r : List Byte) (h : l.length % 16 = 0) : blocksOf (l ++ r) = blocksOf l ++ blocksOf r := by
  have hn : (l ++ r).length / 16 = l.length / 16 + r.length / 16 := by rw [List.length_append]; omega
  rw [blocksOf, hn, takeBlocks_append _ _ _ _ (by omega)]
  rfl

theorem blocksOf_of_length (l : List Byte) (h : l.length = 16) : blocksOf l = [blockOfList l] := by
  simp [blocksOf, h, takeBlocks, List.take_of_length_le h.le]

theorem blocksOf_toList (b : Block) : blocksOf b.toList = [b] := by
  rw [blocksOf_of_length _ (by simp), blockOfList_toList]

/-- The last block of the first n bytes, n a whole number of blocks, by its place in the byte sequence: the form in
which the stream law names the chaining value (rule R35). -/
theorem getLastD_blocksOf_take (v : Block) (l : List Byte) (n : Nat) (hn : n % 16 = 0) (hl : n ≤ l.length) :
    (blocksOf (l.take n)).getLastD v = if n = 0 then v else blockOfList (l.drop (n - 16)) := by
  split_ifs with h0
  · rw [h0, List.take_zero]; rfl
  · have hcut : l.take n = l.take (n - 16) ++ (l.drop (n - 16)).take 16 := by
      rw [← List.take_add, Nat.sub_add_cancel (by omega)]
    have hinit : (l.take (n - 16)).length % 16 = 0 := by rw [List.length_take]; omega
    have hlast : ((l.drop (n - 16)).take 16).length = 16 := by rw [List.length_take, List.length_drop]; omega
    rw [hcut, blocksOf_append _ _ hinit, blocksOf_of_length _ hlast, List.getLastD_concat, blockOfList_take]

theorem length_bytesOf (bs : List Block) : (bytesOf bs).length = 16 * bs.length := by
  induction bs with
  | nil => rfl
  | cons b bs ih =>
    rw [bytesOf, List.flatMap_cons, List.length_append, Vector.length_toList, ← bytesOf, ih, List.length_cons]
    omega

/-! ### CBC decryption -/

/-- Decryption goes on behind the blocks bs with the last of them as chaining value (rule R82). -/
theorem cbcDecryptBlocks_append (k v : Block) (bs cs : List Block) :
    cbcDecryptBlocks k v (bs ++ cs) = cbcDecryptBlocks k v bs ++ cbcDecryptBlocks k (bs.getLastD v) cs := by
  induction bs generalizing v with
  | nil => rfl
  | cons b bs ih => simp only [List.cons_append, cbcDecryptBlocks, cbcDecryptBlock, ih, List.getLastD_cons]

theorem length_cbcDecryptBlocks (k v : Block) (bs : List Block) : (cbcDecryptBlocks k v bs).length = bs.length := by
  induction bs generalizing v with
  | nil => rfl
  | cons b bs ih => rw [cbcDecryptBlocks, List.length_cons, ih, List.length_cons]

theorem length_cbcDecrypt (k v : Block) (l : List Byte) : (cbcDecrypt k v l).length = 16 * (l.length / 16) := by
  rw [cbcDecrypt, length_bytesOf, length_cbcDecryptBlocks, blocksOf, length_takeBlocks]

theorem cbcDecrypt_nil (k v : Block) : cbcDecrypt k v [] = [] := rfl

theorem cbcDecrypt_append (k v : Block) (l r : List Byte) (h : l.length % 16 = 0) :
    cbcDecrypt k v (l ++ r) = cbcDecrypt k v l ++ cbcDecrypt k ((blocksOf l).getLastD v) r := by
  rw [cbcDecrypt, blocksOf_append l r h, cbcDecryptBlocks_append, bytesOf, List.flatMap_append]
  rfl

theorem cbcDecrypt_toList (k v b : Block) : cbcDecrypt k v b.toList = (xorBlock (invCipher k b) v).toList := by
  rw [cbcDecrypt, blocksOf_toList]
  exact List.append_nil _

end Sys2Proof.Machine
end

section
/-! The stream law of rule R35: each operation of the machine keeps it where the machine performs it, and so every
step. -/

namespace Sys2Proof.Machine

/-! ### What the operations do to the parts of the law -/

/-- The next plaintext byte is the first of the unread bytes of OBUF (rules R67, R72). -/
theorem unread_eq_nextOut_cons (s : State) (ho : s.ordy = true) :
    s.obuf.toList.drop (16 - s.orem.val) =
      s.nextOut :: s.deliverByte.obuf.toList.drop (16 - s.deliverByte.orem.val) := by
  have hpos := (ordy_iff s).mp ho
  have hmax := s.orem.isLt
  rw [drop_toList_eq_cons _ _ (by omega), deliverByte_orem_val s hpos, State.nextOut, State.deliverByte_obuf]
  congr 2
  omega

/-- The accepted byte is the last of the valid bytes of IBUF (rules R66, R72). -/
theorem valid_acceptByte (s : State) (b : Byte) (hroom : s.ifill.val < 16) :
    (s.acceptByte b).ibuf.toList.take (s.acceptByte b).ifill.val = s.ibuf.toList.take s.ifill.val ++ [b] := by
  rw [acceptByte_ifill_val s b hroom]
  exact take_toList_setByte s.ibuf s.ifill.val b hroom

/-- In a message the plaintext that the law speaks of is that of the first OCNT + OREM bytes of C. -/
theorem State.Inv.steppedPlain_eq {s : State} (hinv : s.Inv) (hp : s.phase = .run) (h : Streams) :
    s.steppedPlain h = cbcDecrypt engineConfig.key engineConfig.iv (h.sent.take (s.ocnt.toNat + s.orem.val)) := by
  obtain ⟨-, -, hwhole, -, -, -⟩ := (inv_iff_of_run s hp).mp hinv
  rw [State.steppedPlain, Nat.mul_div_cancel' (Nat.dvd_of_mod_eq_zero hwhole)]

/-- In a message the bytes stepped are whole blocks, and with the valid bytes of IBUF they are all of C (rule R27
item c). -/
theorem StreamInv.stepped {s : State} {h : Streams} (hs : StreamInv s h) (hp : s.phase = .run) :
    (s.ocnt.toNat + s.orem.val) % 16 = 0 ∧ s.ifill.val + (s.ocnt.toNat + s.orem.val) = h.sent.length := by
  obtain ⟨-, -, hwhole, hfill, -, -⟩ := (inv_iff_of_run s hp).mp hs.inv
  exact ⟨hwhole, hfill.trans hs.sentCount.symm⟩

/-- In a message the chaining value is that of the first OCNT + OREM bytes of C. -/
theorem StreamInv.prev_eq {s : State} {h : Streams} (hs : StreamInv s h) (hp : s.phase = .run) :
    s.prev = (blocksOf (h.sent.take (s.ocnt.toNat + s.orem.val))).getLastD engineConfig.iv := by
  obtain ⟨hwhole, hcount⟩ := hs.stepped hp
  rw [hs.chaining (.inl hp), getLastD_blocksOf_take _ _ _ hwhole (by omega)]

/-! ### The operations that leave the streams alone -/

/-- The stream law does not speak of PERR, of the port or of the events to come. -/
theorem StreamInv.withPort {s : State} {h : Streams} (hs : StreamInv s h) (p : Bool) (r : Option Word)
    (a : List Event) : StreamInv { s with perr := p, rdata := r, agenda := a } h where
  inv := hs.inv.withPort p r a
  sentCount := hs.sentCount
  gotCount := hs.gotCount
  delivered := hs.delivered
  unread := hs.unread
  unstepped := hs.unstepped
  chaining := hs.chaining

theorem StreamInv.answer {s : State} {h : Streams} (hs : StreamInv s h) (v : Word) : StreamInv (s.answer v) h :=
  hs.withPort s.perr (some v) s.agenda
theorem StreamInv.noAnswer {s : State} {h : Streams} (hs : StreamInv s h) : StreamInv s.noAnswer h :=
  hs.withPort s.perr none s.agenda
theorem StreamInv.flagPerr {s : State} {h : Streams} (hs : StreamInv s h) : StreamInv s.flagPerr h :=
  hs.withPort true s.rdata s.agenda
theorem StreamInv.withAgenda {s : State} {h : Streams} (hs : StreamInv s h) (a : List Event) :
    StreamInv { s with agenda := a } h :=
  hs.withPort s.perr s.rdata a

theorem StreamInv.raiseInvalidLength {s : State} {h : Streams} (hs : StreamInv s h) (hp : s.phase = .idle)
    (hb : badLength s.len = true) : StreamInv s.raiseInvalidLength h where
  inv := hs.inv.raiseInvalidLength hp hb
  sentCount := hs.sentCount
  gotCount := hs.gotCount
  delivered := hs.delivered
  unread := hs.unread
  unstepped := hs.unstepped
  chaining := by simp

theorem StreamInv.storeLen {s : State} {h : Streams} (hs : StreamInv s h) (n : Word) (hp : s.phase = .idle) :
    StreamInv (s.storeLen n) h where
  inv := hs.inv.storeLen n hp
  sentCount := hs.sentCount
  gotCount := hs.gotCount
  delivered := hs.delivered
  unread := hs.unread
  unstepped := hs.unstepped
  chaining := hs.chaining

/-! ### The operations that begin anew -/

/-- With the counters at zero the law holds of empty streams, PREV being the IV if a message is open. -/
theorem streamInv_empty {s : State} (hinv : s.Inv) (hicnt : s.icnt = 0#32) (hocnt : s.ocnt = 0#32)
    (hifill : s.ifill = 0) (horem : s.orem = 0)
    (hprev : s.phase = .run ∨ s.phase = .done → s.prev = engineConfig.iv) : StreamInv s .empty where
  inv := hinv
  sentCount := by rw [hicnt]; rfl
  gotCount := by rw [hocnt]; rfl
  delivered := by rw [hocnt]; rfl
  unread := by simp [State.steppedPlain, Streams.empty, horem, cbcDecrypt_nil]
  unstepped := by rw [hifill]; simp [Streams.empty]
  chaining := fun hp => by rw [hprev hp, hocnt, horem]; rfl

theorem streamInv_clearEngine (s : State) : StreamInv s.clearEngine .empty :=
  streamInv_empty (inv_clearEngine s) rfl rfl rfl rfl (by simp)

theorem State.Inv.streamInv_beginMessage {s : State} (h : s.Inv) (hp : s.phase = .idle)
    (hb : badLength s.len = false) : StreamInv (s.beginMessage engineConfig) .empty :=
  streamInv_empty (h.beginMessage engineConfig hp hb) rfl rfl rfl rfl fun _ => rfl

/-! ### The operations that move bytes -/

/-- An accepted byte goes to the end of C and to the end of the unstepped bytes; nothing stepped is touched. -/
theorem StreamInv.acceptByte {s : State} {h : Streams} (hs : StreamInv s h) (b : Byte) (hi : s.irdy = true) :
    StreamInv (s.acceptByte b) { h with sent := h.sent ++ [b] } := by
  obtain ⟨hp, hroom, hmore⟩ := (irdy_iff s).mp hi
  obtain ⟨hwhole, hcount⟩ := hs.stepped hp
  have hle : s.ocnt.toNat + s.orem.val ≤ h.sent.length := by omega
  have hplain : (s.acceptByte b).steppedPlain { h with sent := h.sent ++ [b] } = s.steppedPlain h := by
    simp only [State.steppedPlain, State.acceptByte_ocnt, State.acceptByte_orem]
    rw [List.take_append_of_le_length (by omega)]
  exact {
    inv := hs.inv.acceptByte b hi
    sentCount := by
      rw [List.length_append, hs.sentCount, State.acceptByte_icnt, toNat_add_one_of_lt hmore, List.length_singleton]
    gotCount := hs.gotCount
    delivered := by rw [hplain]; exact hs.delivered
    unread := by rw [hplain]; exact hs.unread
    unstepped := by
      rw [valid_acceptByte s b hroom, hs.unstepped]
      exact (List.drop_append_of_le_length hle).symm
    chaining := fun _ => by
      rw [State.acceptByte_prev, State.acceptByte_ocnt, State.acceptByte_orem, hs.prev_eq hp,
        ← getLastD_blocksOf_take _ _ _ hwhole (by rw [List.length_append]; omega),
        List.take_append_of_le_length hle] }

/-- A delivered byte goes from the head of the unread plaintext to the end of D; OCNT + OREM stays. -/
theorem StreamInv.deliverByte {s : State} {h : Streams} (hs : StreamInv s h) (ho : s.ordy = true) :
    StreamInv s.deliverByte { h with got := h.got ++ [s.nextOut] } := by
  have hpos := (ordy_iff s).mp ho
  have hp := hs.inv.outInRun hpos
  obtain ⟨-, -, -, -, -, hunf⟩ := (inv_iff_of_run s hp).mp hs.inv
  have hocnt : s.deliverByte.ocnt.toNat = s.ocnt.toNat + 1 := toNat_add_one_of_lt hunf
  have hsum : s.deliverByte.ocnt.toNat + s.deliverByte.orem.val = s.ocnt.toNat + s.orem.val := by
    rw [hocnt, deliverByte_orem_val s hpos]; omega
  have hplain : s.deliverByte.steppedPlain { h with got := h.got ++ [s.nextOut] } = s.steppedPlain h := by
    simp only [State.steppedPlain, hsum]
  have hdrop : (s.steppedPlain h).drop s.ocnt.toNat =
      s.nextOut :: s.deliverByte.obuf.toList.drop (16 - s.deliverByte.orem.val) :=
    hs.unread.symm.trans (unread_eq_nextOut_cons s ho)
  exact {
    inv := hs.inv.deliverByte ho
    sentCount := hs.sentCount
    gotCount := by rw [hocnt, List.length_append, hs.gotCount, List.length_singleton]
    delivered := by rw [hplain, hocnt, List.take_add, hdrop, ← hs.delivered]; rfl
    unread := by rw [hplain, hocnt, ← List.drop_drop, hdrop]; rfl
    unstepped := by rw [hsum]; exact hs.unstepped
    chaining := fun _ => by rw [hsum]; exact hs.chaining (.inl hp) }

/-- The block step decrypts the last block of C, which IBUF holds, behind the blocks stepped before (rules R80, R82). -/
theorem StreamInv.blkStep {s : State} {h : Streams} (hs : StreamInv s h) (hb : s.busy = true) :
    StreamInv (s.blkStep engineConfig) h := by
  obtain ⟨hp, hfull, hread⟩ := (busy_iff s).mp hb
  obtain ⟨hwhole, hcount⟩ := hs.stepped hp
  have hplain := hs.inv.steppedPlain_eq hp h
  have hprev := hs.prev_eq hp
  have hrest := hs.unstepped
  rw [hread, Nat.add_zero] at hwhole hcount hplain hprev hrest
  rw [hfull, List.take_of_length_le (by simp)] at hrest
  have hstepped : (s.blkStep engineConfig).ocnt.toNat + (s.blkStep engineConfig).orem.val = s.ocnt.toNat + 16 := rfl
  have hinit : (h.sent.take s.ocnt.toNat).length = s.ocnt.toNat := by rw [List.length_take]; omega
  have hsent : h.sent.take (s.ocnt.toNat + 16) = h.sent.take s.ocnt.toNat ++ s.ibuf.toList := by
    rw [hrest, List.take_append_drop, List.take_of_length_le (by omega)]
  have hnew : (s.blkStep engineConfig).steppedPlain h = s.steppedPlain h ++ (s.blkStep engineConfig).obuf.toList := by
    calc (s.blkStep engineConfig).steppedPlain h
        = cbcDecrypt engineConfig.key engineConfig.iv (h.sent.take (s.ocnt.toNat + 16)) :=
          (hs.inv.blkStep engineConfig hb).steppedPlain_eq hp h
      _ = s.steppedPlain h ++ (s.blkStep engineConfig).obuf.toList := by
          rw [hsent, cbcDecrypt_append _ _ _ _ (hinit.symm ▸ hwhole), ← hplain, ← hprev, cbcDecrypt_toList]; rfl
  have hlen : (s.steppedPlain h).length = s.ocnt.toNat := by rw [hplain, length_cbcDecrypt, hinit]; omega
  exact {
    inv := hs.inv.blkStep engineConfig hb
    sentCount := hs.sentCount
    gotCount := hs.gotCount
    delivered := by rw [hnew, State.blkStep_ocnt, List.take_append_of_le_length hlen.ge]; exact hs.delivered
    unread := by rw [hnew, State.blkStep_ocnt, ← hlen, List.drop_left]; rfl
    unstepped := (List.drop_of_length_le (by rw [hstepped]; omega)).symm
    chaining := fun _ => by
      rw [State.blkStep_prev, hstepped, if_neg (by omega), Nat.add_sub_cancel, ← hrest, blockOfList_toList] }

/-! ### Every step -/

theorem StreamInv.engineTurn {s : State} {h : Streams} (hs : StreamInv s h) :
    StreamInv (s.engineTurn engineConfig) h := by
  rcases engineTurn_cases engineConfig s with ⟨hb, ht⟩ | ⟨-, ht⟩
  · rw [ht]; exact hs.blkStep hb
  · rw [ht]; exact hs

/-- Every transaction keeps the stream law, with the streams as rule R35 records it. -/
theorem StreamInv.exec {i : Instr} {s t : State} {h : Streams} (hs : StreamInv s h) (ht : exec i s = .next t) :
    StreamInv t (h.record s i) := by
  cases i with
  | start =>
    rcases execStart_cases s t ht with ⟨hp, rfl⟩ | ⟨hp, hb, rfl⟩ | ⟨hp, hb, rfl⟩
    · rw [Streams.record, if_neg fun hopen => hp hopen.1]; exact hs.flagPerr.noAnswer
    · rw [Streams.record, if_neg (by simp [hb])]; exact (hs.raiseInvalidLength hp hb).noAnswer
    · rw [Streams.record, if_pos ⟨hp, hb⟩]; exact (hs.inv.streamInv_beginMessage hp hb).noAnswer
  | clear => cases ht; exact (streamInv_clearEngine s).noAnswer
  | ctrlrsvd _ => cases ht; exact hs.flagPerr.noAnswer
  | setlen n =>
    rcases execSetlen_cases n s t ht with ⟨hp, rfl⟩ | ⟨-, rfl⟩
    · exact (hs.storeLen n hp).noAnswer
    · exact hs.flagPerr.noAnswer
  | push b =>
    rcases execPush_cases b s t ht with ⟨hi, rfl⟩ | ⟨hi, rfl⟩
    · rw [Streams.record, if_pos hi]; exact (hs.acceptByte b hi).noAnswer
    · rw [Streams.record, if_neg (by simp [hi])]; exact hs.flagPerr.noAnswer
  | pop =>
    rcases execPop_cases s t ht with ⟨ho, rfl⟩ | ⟨ho, rfl⟩
    · rw [Streams.record, if_pos ho]; exact (hs.deliverByte ho).answer _
    · rw [Streams.record, if_neg (by simp [ho])]; exact hs.flagPerr.answer _
  | stat | getlen | geticnt | getocnt => cases ht; exact hs.answer _
  | illegal d _ =>
    cases d with
    | read => cases ht; exact hs.flagPerr.answer _
    | write => cases ht; exact hs.flagPerr.noAnswer

/-- What is recorded of a transaction does not depend on the events still to come. -/
theorem record_withAgenda (s : State) (h : Streams) (i : Instr) (a : List Event) :
    h.record { s with agenda := a } i = h.record s i := by
  cases i <;> rfl

/-- Settles O27: each kind of event keeps the stream law. -/
theorem everyStepKeepsTheStreamLaw : Obligations.EveryStepKeepsTheStreamLaw := by
  intro s t h hs ht
  rcases step_cases s t ht with ⟨ha, rfl⟩ | ⟨rest, ha, rfl⟩ | ⟨rest, ha, rfl⟩ | ⟨tw, rest, ha, ht⟩ <;>
    simp only [Streams.after, ha]
  · exact hs.engineTurn
  · exact (hs.withAgenda rest).engineTurn
  · exact streamInv_clearEngine _
  · rw [← record_withAgenda s h (decode tw) rest]
    exact (hs.withAgenda rest).exec ht

end Sys2Proof.Machine
end

section
/-! The atomicity of the port (rules R30, R39): a step never stops, a read answers and a write does not, a ready flag
lasts until the host uses it, and one read of STATUS covers the rest of a block. -/

namespace Sys2Proof.Machine

/-! ### Every event is answered -/

/-- Settles O18: at each kind of next event the step answers. -/
theorem stepAlwaysAnswersNext : Obligations.StepAlwaysAnswersNext := by
  intro s
  cases ha : s.agenda with
  | nil => exact ⟨_, step_nil s ha⟩
  | cons e rest =>
    cases e with
    | engine => exact ⟨_, step_engine s rest ha⟩
    | reset => exact ⟨_, step_reset s rest ha⟩
    | host tw => rw [step_host s tw rest ha]; exact exec_next (decode tw) _

/-- Settles O34: every path of a read ends in `answer`, every path of a write leaves the port without one. -/
theorem readsAnswerAndWritesDoNot : Obligations.ReadsAnswerAndWritesDoNot := by
  intro i s t ht
  cases i with
  | start => rcases execStart_cases s t ht with ⟨-, rfl⟩ | ⟨-, -, rfl⟩ | ⟨-, -, rfl⟩ <;> rfl
  | setlen n => rcases execSetlen_cases n s t ht with ⟨-, rfl⟩ | ⟨-, rfl⟩ <;> rfl
  | push b => rcases execPush_cases b s t ht with ⟨-, rfl⟩ | ⟨-, rfl⟩ <;> rfl
  | pop => rcases execPop_cases s t ht with ⟨-, rfl⟩ | ⟨-, rfl⟩ <;> rfl
  | illegal d _ => cases d <;> cases ht <;> rfl
  | clear | ctrlrsvd _ | stat | getlen | geticnt | getocnt => cases ht; rfl

/-! ### What an event in RUN does to the ready flags -/

/-- In RUN a transaction is CLEAR, an accepted PUSH, a delivering POP, or leaves all but PERR and the port. -/
theorem exec_cases_of_run {i : Instr} {s t : State} (hp : s.phase = .run) (ht : exec i s = .next t) :
    i = .clear ∨ (∃ b, i = .push b ∧ s.irdy = true ∧ t = (s.acceptByte b).noAnswer) ∨
    (i = .pop ∧ s.ordy = true ∧ t = s.deliverByte.answer (zextByte s.nextOut)) ∨
    ∃ p r, t = { s with perr := p, rdata := r } := by
  have hidle : s.phase ≠ .idle := by simp [hp]
  cases i with
  | clear => exact .inl rfl
  | start => cases (exec_start_of_not_idle s hidle).symm.trans ht; exact .inr (.inr (.inr ⟨_, _, rfl⟩))
  | setlen n => cases (exec_setlen_of_not_idle n s hidle).symm.trans ht; exact .inr (.inr (.inr ⟨_, _, rfl⟩))
  | push b =>
    rcases execPush_cases b s t ht with ⟨hi, rfl⟩ | ⟨-, rfl⟩
    · exact .inr (.inl ⟨b, rfl, hi, rfl⟩)
    · exact .inr (.inr (.inr ⟨_, _, rfl⟩))
  | pop =>
    rcases execPop_cases s t ht with ⟨ho, rfl⟩ | ⟨-, rfl⟩
    · exact .inr (.inr (.inl ⟨rfl, ho, rfl⟩))
    · exact .inr (.inr (.inr ⟨_, _, rfl⟩))
  | illegal d _ => cases d <;> cases ht <;> exact .inr (.inr (.inr ⟨_, _, rfl⟩))
  | ctrlrsvd _ | stat | getlen | geticnt | getocnt => cases ht; exact .inr (.inr (.inr ⟨_, _, rfl⟩))

/-- While a ready flag is up no block step is enabled, and ENGINE's turn holds the state. -/
theorem perform_engine_of_ready (s : State) (h : s.irdy = true ∨ s.ordy = true) :
    s.perform .engine = { s with agenda := [] } := by
  have hb : s.busy = false := by
    by_contra hb
    obtain ⟨hi, ho⟩ := flags_of_busy s (by simpa using hb)
    simp [hi, ho] at h
  rw [perform_engine]
  exact engineTurn_of_not_busy engineConfig { s with agenda := [] } hb

/-- With bytes still to be accepted a delivery does not end the message, since OCNT < ICNT < LEN (rule R27 item c). -/
theorem State.Inv.irdy_deliverByte {s : State} (h : s.Inv) (hi : s.irdy = true) (ho : s.ordy = true) :
    s.deliverByte.irdy = true := by
  obtain ⟨hp, hroom, hmore⟩ := (irdy_iff s).mp hi
  obtain ⟨-, -, -, hfill, -, hunf⟩ := (inv_iff_of_run s hp).mp h
  have hpos := (ordy_iff s).mp ho
  have hocnt := toNat_add_one_of_lt hunf
  rcases phaseAfterPop_cases s with ⟨hlast, -⟩ | ⟨-, hphase⟩
  · have := congrArg BitVec.toNat hlast
    omega
  · exact (irdy_iff s.deliverByte).mpr ⟨hphase.trans hp, hroom, hmore⟩

/-- Settles O29: while a flag is up, STATE is RUN, where only the excluded events could lower it. -/
theorem readyFlagsAreStable : Obligations.ReadyFlagsAreStable := by
  constructor
  · intro s e h hi hreset hclear hpush
    cases e with
    | engine => rw [perform_engine_of_ready s (.inl hi)]; exact hi
    | reset => exact absurd rfl hreset
    | host tw =>
      obtain ⟨hp, -⟩ := (irdy_iff s).mp hi
      rcases exec_cases_of_run (s := { s with agenda := [] }) hp (exec_eq_perform tw s) with
        hc | ⟨b, hc, -⟩ | ⟨-, ho, ht⟩ | ⟨p, r, ht⟩
      · exact absurd (congrArg some hc) hclear
      · exact absurd (congrArg some hc) (hpush b)
      · rw [ht]; exact (h.withAgenda []).irdy_deliverByte hi ho
      · rw [ht]; exact hi
  · intro s e h ho hreset hclear hpop
    cases e with
    | engine => rw [perform_engine_of_ready s (.inr ho)]; exact ho
    | reset => exact absurd rfl hreset
    | host tw =>
      have hp := h.outInRun ((ordy_iff s).mp ho)
      rcases exec_cases_of_run (s := { s with agenda := [] }) hp (exec_eq_perform tw s) with
        hc | ⟨b, -, -, ht⟩ | ⟨hc, -⟩ | ⟨p, r, ht⟩
      · exact absurd (congrArg some hc) hclear
      · rw [ht]; exact ho
      · exact absurd (congrArg some hc) hpop
      · rw [ht]; exact ho

/-! ### Bursts -/

/-- Performing an encoded transaction is what `exec` answers for it. -/
theorem perform_encode (i : Instr) (s t : State) (hwf : i.wf = true) (h : exec i { s with agenda := [] } = .next t) :
    s.perform (.host (encode i)) = t :=
  perform_host s t (encode i) (by rwa [decode_encode i hwf])

theorem perform_pop_of_ordy (s : State) (ho : s.ordy = true) :
    s.perform (.host (encode .pop)) =
      (State.deliverByte { s with agenda := [] }).answer (zextByte s.nextOut) :=
  perform_encode .pop s _ rfl (exec_pop_of_ordy { s with agenda := [] } ho)

theorem perform_push_of_irdy (b : Byte) (s : State) (hi : s.irdy = true) :
    s.perform (.host (encode (.push b))) = (State.acceptByte { s with agenda := [] } b).noAnswer :=
  perform_encode (.push b) s _ rfl (exec_push_of_irdy b { s with agenda := [] } hi)

/-- The byte that a delivering POP returns (rules R67, R72). -/
theorem popped_of_ordy (s : State) (ho : s.ordy = true) : Event.popped s (.host (encode .pop)) = [s.nextOut] := by
  have hinstr : Event.instr? (.host (encode .pop)) = some .pop := congrArg some (decode_encode .pop rfl)
  rw [Event.popped, if_pos hinstr, perform_pop_of_ordy s ho, State.answer_rdata, Option.getD_some, zextByte,
    BitVec.setWidth_setWidth_of_le _ (by decide), BitVec.setWidth_eq]

/-- Up to OREM reads of DOUT deliver the unread bytes of OBUF in order. -/
theorem State.Inv.performAll_pops {s : State} (h : s.Inv) (n : Nat) (hn : n ≤ s.orem.val) :
    (s.performAll (List.replicate n (.host (encode .pop)))).perr = s.perr ∧
    (s.performAll (List.replicate n (.host (encode .pop)))).ocnt.toNat = s.ocnt.toNat + n ∧
    poppedBytes s (List.replicate n (.host (encode .pop))) = (s.obuf.toList.drop (16 - s.orem.val)).take n := by
  induction n generalizing s with
  | zero => exact ⟨rfl, rfl, rfl⟩
  | succ n ih =>
    have hpos : 0 < s.orem.val := by omega
    have ho := (ordy_iff s).mpr hpos
    obtain ⟨-, -, -, -, -, hunf⟩ := (inv_iff_of_run s (h.outInRun hpos)).mp h
    have hocnt : s.deliverByte.ocnt.toNat = s.ocnt.toNat + 1 := toNat_add_one_of_lt hunf
    have hrest : n ≤ s.deliverByte.orem.val := by rw [deliverByte_orem_val s hpos]; omega
    have hsum : s.deliverByte.ocnt.toNat + n = s.ocnt.toNat + (n + 1) := by omega
    obtain ⟨hperr, hcount, hbytes⟩ := ih (((h.withAgenda []).deliverByte ho).answer (zextByte s.nextOut)) hrest
    rw [List.replicate_succ, State.performAll, poppedBytes, popped_of_ordy s ho, perform_pop_of_ordy s ho, hbytes,
      unread_eq_nextOut_cons s ho]
    exact ⟨hperr, hcount.trans hsum, rfl⟩

/-- IRDY stays up after an accepted byte that does not fill IBUF: ICNT is then inside a block, LEN at the end of one. -/
theorem State.Inv.irdy_acceptByte {s : State} (h : s.Inv) (b : Byte) (hi : s.irdy = true)
    (hroom : s.ifill.val + 1 < 16) : (s.acceptByte b).irdy = true := by
  obtain ⟨hp, hfree, hmore⟩ := (irdy_iff s).mp hi
  obtain ⟨-, hlen, hwhole, hfill, -, -⟩ := (inv_iff_of_run s hp).mp h
  refine (irdy_iff (s.acceptByte b)).mpr ⟨hp, ?_, ?_⟩
  · rwa [acceptByte_ifill_val s b hfree]
  · rw [State.acceptByte_icnt, toNat_add_one_of_lt hmore, State.acceptByte_len]; omega

/-- Up to 16 - IFILL writes of DIN are all accepted, if the first is. -/
theorem State.Inv.performAll_pushes {s : State} (h : s.Inv) (bs : List Byte) (hi : bs ≠ [] → s.irdy = true)
    (hroom : bs.length ≤ 16 - s.ifill.val) :
    (s.performAll (bs.map fun b => .host (encode (.push b)))).perr = s.perr ∧
    (s.performAll (bs.map fun b => .host (encode (.push b)))).icnt.toNat = s.icnt.toNat + bs.length := by
  induction bs generalizing s with
  | nil => exact ⟨rfl, rfl⟩
  | cons b bs ih =>
    have hi := hi (List.cons_ne_nil b bs)
    obtain ⟨-, hfree, hmore⟩ := (irdy_iff s).mp hi
    have hicnt : (s.acceptByte b).icnt.toNat = s.icnt.toNat + 1 := toNat_add_one_of_lt hmore
    have hifill := acceptByte_ifill_val s b hfree
    rw [List.length_cons] at hroom ⊢
    have hrest : bs.length ≤ 16 - (s.acceptByte b).ifill.val := by omega
    have hsum : (s.acceptByte b).icnt.toNat + bs.length = s.icnt.toNat + (bs.length + 1) := by omega
    have hnext (hne : bs ≠ []) : (s.acceptByte b).irdy = true := by
      have := List.length_pos_iff.mpr hne
      exact h.irdy_acceptByte b hi (by omega)
    obtain ⟨hperr, hcount⟩ := ih ((h.withAgenda []).acceptByte b hi).noAnswer hnext hrest
    rw [List.map_cons, State.performAll, perform_push_of_irdy b s hi]
    exact ⟨hperr, hcount.trans hsum⟩

/-- Settles O30, by induction on the burst: the flag that covers the rest of the block covers each next byte. -/
theorem burstsToTheEndOfTheBlock : Obligations.BurstsToTheEndOfTheBlock :=
  ⟨fun _ n h _ hn => h.performAll_pops n hn, fun _ bs h hi hroom => h.performAll_pushes bs (fun _ => hi) hroom⟩

end Sys2Proof.Machine
end

section
/-! Decoding and encoding as inverses: which words stand for each transaction, by their fields, and what the encoder
makes of a decoded word (`30_encoding.md` rules R46 to R53). -/

namespace Sys2Proof.Machine

/-! ### The words of each transaction -/

/-- The words that stand for each transaction, by RW, ADDR and CMD: the opcode map of rule R49 with its order spelt out
as conditions. -/
inductive Names (tw : TWord) : Instr → Prop
  | start (hd : twDir tw = .write) (ha : twAddr tw = 0x00#8) (hl : twLow tw = 0x01#8) : Names tw .start
  | clear (hd : twDir tw = .write) (ha : twAddr tw = 0x00#8) (hl : twLow tw = 0x02#8) : Names tw .clear
  | ctrlrsvd (hd : twDir tw = .write) (ha : twAddr tw = 0x00#8) (hl : reservedCmd (twLow tw) = true) :
      Names tw (.ctrlrsvd (twLow tw))
  | setlen (hd : twDir tw = .write) (ha : twAddr tw = 0x08#8) : Names tw (.setlen (twData tw))
  | push (hd : twDir tw = .write) (ha : twAddr tw = 0x0C#8) : Names tw (.push (twLow tw))
  | stat (hd : twDir tw = .read) (ha : twAddr tw = 0x04#8) : Names tw .stat
  | getlen (hd : twDir tw = .read) (ha : twAddr tw = 0x08#8) : Names tw .getlen
  | pop (hd : twDir tw = .read) (ha : twAddr tw = 0x10#8) : Names tw .pop
  | geticnt (hd : twDir tw = .read) (ha : twAddr tw = 0x14#8) : Names tw .geticnt
  | getocnt (hd : twDir tw = .read) (ha : twAddr tw = 0x18#8) : Names tw .getocnt
  | illegal (hm : mappedAccess (twDir tw) (twAddr tw) = false) : Names tw (.illegal (twDir tw) (twAddr tw))

/-- The decoder answers the transaction that the word stands for (rule R49). -/
theorem names_decode (tw : TWord) : Names tw (decode tw) := by
  rw [decode_fields]
  refine iteInduction (motive := Names tw) (fun ⟨hd, ha, hl⟩ => .start hd ha hl) fun hstart => ?_
  refine iteInduction (motive := Names tw) (fun ⟨hd, ha, hl⟩ => .clear hd ha hl) fun hclear => ?_
  refine iteInduction (motive := Names tw) (fun ⟨hd, ha⟩ => .ctrlrsvd hd ha ?_) fun hctrl => ?_
  · simp_all [reservedCmd]
  refine iteInduction (motive := Names tw) (fun ⟨hd, ha⟩ => .setlen hd ha) fun hsetlen => ?_
  refine iteInduction (motive := Names tw) (fun ⟨hd, ha⟩ => .push hd ha) fun hpush => ?_
  refine iteInduction (motive := Names tw) (fun ⟨hd, ha⟩ => .stat hd ha) fun hstat => ?_
  refine iteInduction (motive := Names tw) (fun ⟨hd, ha⟩ => .getlen hd ha) fun hgetlen => ?_
  refine iteInduction (motive := Names tw) (fun ⟨hd, ha⟩ => .pop hd ha) fun hpop => ?_
  refine iteInduction (motive := Names tw) (fun ⟨hd, ha⟩ => .geticnt hd ha) fun hgeticnt => ?_
  refine iteInduction (motive := Names tw) (fun ⟨hd, ha⟩ => .getocnt hd ha) fun hgetocnt => .illegal ?_
  cases hd : twDir tw <;> simp_all [mappedAccess]

/-- What a word stands for is well-formed: CTRLRSVD has a reserved code, ILLEGAL no mapped access. -/
theorem Names.wf {tw : TWord} {i : Instr} (h : Names tw i) : i.wf = true := by
  cases h with
  | ctrlrsvd _ _ hl => exact hl
  | illegal hm => simp [Instr.wf, hm]
  | start | clear | setlen | push | stat | getlen | pop | geticnt | getocnt => rfl

theorem decode_wf (tw : TWord) : (decode tw).wf = true := (names_decode tw).wf

/-! ### The word that is kept -/

/-- The data of a word with the ignored bits zero (rules R46 to R48, R51). -/
def keptData (tw : TWord) : Word :=
  if twDir tw = .read then 0#32
  else if twAddr tw = 0x00#8 ∨ twAddr tw = 0x0C#8 then (twLow tw).setWidth 32
  else if twAddr tw = 0x08#8 then twData tw
  else 0#32

/-- The data of a write elsewhere, and of every read, is ignored whole (rule R51). -/
theorem keptData_of_not_mapped (tw : TWord) (hm : mappedAccess (twDir tw) (twAddr tw) = false) :
    keptData tw = 0#32 := by
  cases hd : twDir tw with
  | read => simp [keptData, hd]
  | write =>
    obtain ⟨⟨h0, h8⟩, hc⟩ : (twAddr tw ≠ 0x00#8 ∧ twAddr tw ≠ 0x08#8) ∧ twAddr tw ≠ 0x0C#8 := by
      simpa [hd, mappedAccess] using hm
    simp [keptData, hd, h0, h8, hc]

/-- The encoder writes RW and ADDR of any word that stands for the transaction, and of its data what is not ignored
(rule R53). -/
theorem Names.encode_eq {tw : TWord} {i : Instr} (h : Names tw i) :
    encode i = packTW (twDir tw) (twAddr tw) (keptData tw) := by
  cases h with
  | illegal hm => rw [encode, keptData_of_not_mapped tw hm]
  | start hd ha hl | clear hd ha hl => simp [encode, keptData, hd, ha, hl]
  | ctrlrsvd hd ha | setlen hd ha | push hd ha => simp [encode, keptData, hd, ha]
  | stat hd ha | getlen hd ha | pop hd ha | geticnt hd ha | getocnt hd ha => rw [encode, keptData, if_pos hd, hd, ha]

/-- Words that differ in ignored bits alone keep the same data (rules R46, R47, R51). -/
theorem keptData_congr {tw tw' : TWord} (hd : twDir tw = twDir tw') (ha : twAddr tw = twAddr tw')
    (h : twDir tw = .read ∨ ((twAddr tw = 0x00#8 ∨ twAddr tw = 0x0C#8) ∧ twLow tw = twLow tw')) :
    keptData tw = keptData tw' := by
  rw [keptData, keptData, ← hd, ← ha]
  rcases h with hread | ⟨haddr, hlow⟩
  · rw [if_pos hread, if_pos hread]
  · rw [if_pos haddr, if_pos haddr, hlow]

/-! ### The rows of the map -/

/-- Two rows share no word when their patterns differ in a bit that both masks test (rule R49). -/
theorem OpcodeRow.no_common_word {r r' : OpcodeRow} (h : r.pattern &&& r'.mask ≠ r'.pattern &&& r.mask) (tw : TWord) :
    ¬ (tw &&& r.mask = r.pattern ∧ tw &&& r'.mask = r'.pattern) := by
  rintro ⟨hr, hr'⟩
  apply h
  rw [← hr, ← hr', BitVec.and_assoc, BitVec.and_assoc, BitVec.and_comm r.mask]

/-! ### The obligations -/

/-- Settles O13: each of the thirteen words is run through the decoder. -/
theorem writtenWordsDecode : Obligations.WrittenWordsDecode := by
  unfold Obligations.WrittenWordsDecode
  decide

/-- Settles O14: the fields of the encoded word select the row of the instruction again. -/
theorem decodeOfEncode : Obligations.DecodeOfEncode := decode_encode

/-- Settles O15, by the words that stand for each transaction. -/
theorem encodeOfDecode : Obligations.EncodeOfDecode := fun tw => (names_decode tw).encode_eq

/-- Settles O16: words that differ in ignored bits alone have decodings that encode alike, and decoding inverts
encoding. -/
theorem decoderIgnoresUnusedBits : Obligations.DecoderIgnoresUnusedBits := by
  intro tw tw' hd ha h
  have henc : encode (decode tw) = encode (decode tw') := by
    rw [(names_decode tw).encode_eq, (names_decode tw').encode_eq, keptData_congr hd ha h, hd, ha]
  rw [← decode_encode _ (decode_wf tw), henc, decode_encode _ (decode_wf tw')]

/-- Settles O17: each pair of the nine rows differs in RW, ADDR or CMD where both test it. -/
theorem everyWordIsOneTransaction : Obligations.EveryWordIsOneTransaction := by
  refine ⟨decode_wf, List.Pairwise.imp (R := fun r r' => r.pattern &&& r'.mask ≠ r'.pattern &&& r.mask) ?_ ?_⟩
  · exact OpcodeRow.no_common_word
  · decide

end Sys2Proof.Machine
end

section
/-! Host programs on a fair schedule (rules R54, R166): what a script comes to whatever the schedule, and the wait for a
flag of STATUS. -/

namespace Sys2Proof.Machine

/-! ### What a script comes to on every fair schedule -/

/-- On every fair schedule the run of the script from this state comes to a script and a state of which Q holds. -/
def Script.LeadsTo (p : Script) (s : State) (Q : Script → State → Prop) : Prop :=
  ∀ sched, FairSchedule sched → ∃ n, Q (Script.run sched p s n).1 (Script.run sched p s n).2

/-- What is left of a fair schedule is fair. -/
theorem FairSchedule.drop {sched : Nat → Turn} (h : FairSchedule sched) (n : Nat) :
    FairSchedule fun k => sched (n + k) where
  noReset k := h.noReset (n + k)
  engineAgain k := by
    obtain ⟨m, hm, ht⟩ := h.engineAgain (n + k)
    exact ⟨m - n, by omega, by rwa [Nat.add_sub_cancel' (by omega)]⟩
  hostAgain k := by
    obtain ⟨m, hm, ht⟩ := h.hostAgain (n + k)
    exact ⟨m - n, by omega, by rwa [Nat.add_sub_cancel' (by omega)]⟩

theorem FairSchedule.exists_turn {sched : Nat → Turn} (h : FairSchedule sched) {t : Turn} (ht : t ≠ .reset) :
    ∃ n, sched n = t := by
  cases t with
  | host => exact (h.hostAgain 0).imp fun _ hm => hm.2
  | engine => exact (h.engineAgain 0).imp fun _ hm => hm.2
  | reset => exact absurd rfl ht

/-- A run of n + m turns is one of n turns and then one of m turns on the rest of the schedule. -/
theorem Script.run_add (sched : Nat → Turn) (p : Script) (s : State) (n m : Nat) :
    Script.run sched p s (n + m) =
      Script.run (fun k => sched (n + k)) (Script.run sched p s n).1 (Script.run sched p s n).2 m := by
  induction m with
  | zero => rfl
  | succ m ih => rw [← Nat.add_assoc, Script.run, ih, Script.run]

theorem Script.LeadsTo.refl {p : Script} {s : State} {Q : Script → State → Prop} (h : Q p s) : p.LeadsTo s Q :=
  fun _ _ => ⟨0, h⟩

theorem Script.LeadsTo.trans {p : Script} {s : State} {Q R : Script → State → Prop} (h : p.LeadsTo s Q)
    (hQ : ∀ p' s', Q p' s' → p'.LeadsTo s' R) : p.LeadsTo s R := by
  intro sched hfair
  obtain ⟨n, hn⟩ := h sched hfair
  obtain ⟨m, hm⟩ := hQ _ _ hn _ (hfair.drop n)
  exact ⟨n + m, by rwa [Script.run_add]⟩

/-- If I holds, lasts through every other turn of a fair schedule, and a turn of agent t takes it to Q, then Q comes:
t has its turn sooner or later (rule R166). -/
theorem Script.LeadsTo.of_turn (t : Turn) (ht : t ≠ .reset) {p : Script} {s : State} (I : Script → State → Prop)
    {Q : Script → State → Prop} (hI : I p s)
    (hstay : ∀ u q r, u ≠ .reset → u ≠ t → I q r → I (q.turn r u).1 (q.turn r u).2)
    (hgo : ∀ q r, I q r → Q (q.turn r t).1 (q.turn r t).2) : p.LeadsTo s Q := by
  intro sched hfair
  have hex := hfair.exists_turn ht
  have hwait (n : Nat) (hn : n ≤ Nat.find hex) : I (Script.run sched p s n).1 (Script.run sched p s n).2 := by
    induction n with
    | zero => exact hI
    | succ n ih => exact hstay _ _ _ (hfair.noReset n) (Nat.find_min hex hn) (ih (Nat.le_of_succ_le hn))
  refine ⟨Nat.find hex + 1, ?_⟩
  rw [Script.run, Nat.find_spec hex]
  exact hgo _ _ (hwait _ le_rfl)

/-- While ENGINE's turns keep I of the state, the script waits for the host's turn, which comes. -/
theorem Script.LeadsTo.of_host {p : Script} {s : State} (I : State → Prop) {Q : Script → State → Prop} (hI : I s)
    (hengine : ∀ r, I r → I (r.perform .engine))
    (hhost : ∀ r, I r → Q (p.turn r .host).1 (p.turn r .host).2) : p.LeadsTo s Q := by
  refine .of_turn .host (by decide) (fun q r => q = p ∧ I r) ⟨rfl, hI⟩ ?_ ?_
  · rintro u q r hreset hnot ⟨rfl, hr⟩
    cases u with
    | engine => exact ⟨rfl, hengine r hr⟩
    | host => exact absurd rfl hnot
    | reset => exact absurd rfl hreset
  · rintro q r ⟨rfl, hr⟩
    exact hhost r hr

/-! ### The wait for a flag -/

theorem Script.turn_host_line (l : AsmLine) (rest : List HostOp) (reads : List Word) (s : State) :
    Script.turn ⟨.line l :: rest, reads⟩ s .host =
      (⟨rest, reads ++ (s.perform (.host (assemble l))).rdata.toList⟩, s.perform (.host (assemble l))) := rfl

theorem perform_stat (s : State) :
    s.perform (.host (encode .stat)) = State.answer { s with agenda := [] } s.statusWord :=
  perform_encode .stat s _ rfl rfl

/-- ORDY is bit 3 of STATUS (rule R18). -/
theorem statusWord_ordy (s : State) : s.statusWord.getLsbD 3 = s.ordy := by
  have hflag (f : Bool) (i : Nat) (hi : 0 < i) : (flagBit f).getLsbD i = false := by
    rw [flagBit, BitVec.getLsbD_setWidth, BitVec.getLsbD_of_ge _ _ hi, Bool.and_false]
  have hordy : (flagBit s.ordy).getLsbD 0 = s.ordy := by cases s.ordy <;> rfl
  simp [State.statusWord, hflag, hordy, -BitVec.getLsbD_eq_getElem]

/-- A turn of the host in WAITO is a read of STATUS, and the last one when ORDY = 1 (rule R54). -/
theorem Script.turn_host_waito (rest : List HostOp) (reads : List Word) (s : State) :
    Script.turn ⟨.waitBit 3 :: rest, reads⟩ s .host =
      (⟨if s.ordy then rest else .waitBit 3 :: rest, reads ++ [s.statusWord]⟩,
        State.answer { s with agenda := [] } s.statusWord) := by
  rw [← statusWord_ordy, ← perform_stat]
  rfl

end Sys2Proof.Machine
end

section
/-! One block through the streams: PUSHBLK, WAITO and POPBLK, each on every fair schedule, by what the engine holds
between them (rules R54, R66, R67, R80). -/

namespace Sys2Proof.Machine

/-! ### The engine that collects a block -/

/-- In RUN, with no output left to read and chaining value v, the engine holds the bytes `got` of the next block. -/
structure State.Collecting (v : Block) (got : List Byte) (s : State) : Prop where
  inv : s.Inv
  run : s.phase = .run
  noOutput : s.orem.val = 0
  prev : s.prev = v
  filled : s.ifill.val = got.length
  valid : s.ibuf.toList.take s.ifill.val = got

section
variable {v : Block} {got : List Byte} {s : State}

theorem State.Collecting.withPort (h : s.Collecting v got) (p : Bool) (r : Option Word) (a : List Event) :
    State.Collecting v got { s with perr := p, rdata := r, agenda := a } where
  inv := h.inv.withPort p r a
  run := h.run
  noOutput := h.noOutput
  prev := h.prev
  filled := h.filled
  valid := h.valid

theorem State.Collecting.ordy_false (h : s.Collecting v got) : s.ordy = false := by
  simp [State.ordy, h.noOutput]

/-- A part of a block leaves nothing to do but to accept more (rule R27 item h). -/
theorem State.Collecting.irdy (h : s.Collecting v got) (hl : got.length < 16) : s.irdy = true := by
  have hb : ¬ s.busy = true := fun hb => by
    obtain ⟨-, hfull, -⟩ := (busy_iff s).mp hb
    have := h.filled
    omega
  simpa [h.ordy_false, hb] using h.inv.noDeadEnd h.run

/-- A whole block enables the block step (rule R80). -/
theorem State.Collecting.busy (h : s.Collecting v got) (hl : got.length = 16) : s.busy = true :=
  (busy_iff s).mpr ⟨h.run, h.filled.trans hl, h.noOutput⟩

theorem State.Collecting.after_engine (h : s.Collecting v got) (hl : got.length < 16) :
    (s.perform .engine).Collecting v got := by
  rw [perform_engine_of_ready s (.inl (h.irdy hl))]
  exact h.withPort s.perr s.rdata []

theorem State.Collecting.after_stat (h : s.Collecting v got) :
    (State.answer { s with agenda := [] } s.statusWord).Collecting v got :=
  h.withPort s.perr _ []

theorem State.Collecting.acceptByte (h : s.Collecting v got) (x : Byte) (hl : got.length < 16) :
    (s.acceptByte x).Collecting v (got ++ [x]) where
  inv := h.inv.acceptByte x (h.irdy hl)
  run := h.run
  noOutput := h.noOutput
  prev := h.prev
  filled := by
    rw [acceptByte_ifill_val s x (h.filled.trans_lt hl), h.filled, List.length_append, List.length_singleton]
  valid := by rw [valid_acceptByte s x (h.filled.trans_lt hl), h.valid]

end

/-! ### The engine that delivers a block -/

/-- The bytes `left` of the stepped block are still to be read. -/
structure State.Delivering (left : List Byte) (s : State) : Prop where
  inv : s.Inv
  unread : s.obuf.toList.drop (16 - s.orem.val) = left

section
variable {left : List Byte} {s : State}

theorem State.Delivering.withPort (h : s.Delivering left) (p : Bool) (r : Option Word) (a : List Event) :
    State.Delivering left { s with perr := p, rdata := r, agenda := a } where
  inv := h.inv.withPort p r a
  unread := h.unread

theorem State.Delivering.ordy (h : s.Delivering left) (hl : left ≠ []) : s.ordy = true := by
  rw [ordy_iff]
  by_contra h0
  apply hl
  rw [← h.unread, List.drop_eq_nil_of_le (by rw [Vector.length_toList]; omega)]

theorem State.Delivering.after_engine (h : s.Delivering left) (hl : left ≠ []) :
    (s.perform .engine).Delivering left := by
  rw [perform_engine_of_ready s (.inr (h.ordy hl))]
  exact h.withPort s.perr s.rdata []

theorem State.Delivering.after_stat (h : s.Delivering left) :
    (State.answer { s with agenda := [] } s.statusWord).Delivering left :=
  h.withPort s.perr _ []

/-- A delivery hands out the first of the bytes left (rule R67). -/
theorem State.Delivering.deliverByte {x : Byte} (h : s.Delivering (x :: left)) :
    s.nextOut = x ∧ s.deliverByte.Delivering left := by
  have ho := h.ordy (List.cons_ne_nil x left)
  obtain ⟨hx, hleft⟩ := List.cons.inj ((unread_eq_nextOut_cons s ho).symm.trans h.unread)
  exact ⟨hx, h.inv.deliverByte ho, hleft⟩

end

/-- The block step turns the collected block into its plaintext (rules R80, R81). -/
theorem State.Collecting.delivering_after_engine {v b : Block} {s : State} (h : s.Collecting v b.toList) :
    (s.perform .engine).Delivering (xorBlock (invCipher engineConfig.key b) v).toList := by
  have hb : State.busy { s with agenda := [] } = true := h.busy b.length_toList
  have hibuf : s.ibuf = b := by
    have hvalid := h.valid
    rw [h.filled, b.length_toList, List.take_of_length_le s.ibuf.length_toList.le] at hvalid
    exact Vector.toList_inj.mp hvalid
  rw [perform_engine, engineTurn_of_busy _ _ hb]
  refine ⟨(h.inv.withAgenda []).blkStep engineConfig hb, ?_⟩
  simp only [State.blkStep_obuf, State.blkStep_orem, hibuf, h.prev]
  rfl

/-! ### The three pseudo-instructions -/

/-- PUSHBLK: the bytes are accepted one after another, with no answer (rule R66). -/
theorem State.Collecting.pushes_leadTo {v : Block} {got bs : List Byte} {s : State} (h : s.Collecting v got)
    (hl : got.length + bs.length = 16) (rest : List HostOp) (reads : List Word) :
    Script.LeadsTo ⟨bs.map (fun x => .line (.push x)) ++ rest, reads⟩ s
      fun p t => p = ⟨rest, reads⟩ ∧ t.Collecting v (got ++ bs) := by
  induction bs generalizing got s with
  | nil => exact .refl ⟨rfl, by rwa [List.append_nil]⟩
  | cons x bs ih =>
    rw [List.length_cons] at hl
    have hroom : got.length < 16 := by omega
    have hone : Script.LeadsTo ⟨.line (.push x) :: (bs.map (fun y => .line (.push y)) ++ rest), reads⟩ s
        fun p t => p = ⟨bs.map (fun y => .line (.push y)) ++ rest, reads⟩ ∧ t.Collecting v (got ++ [x]) := by
      refine .of_host (State.Collecting v got) h (fun r hr => hr.after_engine hroom) fun r hr => ?_
      rw [Script.turn_host_line, assemble, perform_push_of_irdy x r (hr.irdy hroom)]
      exact ⟨by simp, ((hr.withPort r.perr r.rdata []).acceptByte x hroom).withPort r.perr none []⟩
    refine hone.trans ?_
    rintro p t ⟨rfl, ht⟩
    rw [List.append_cons]
    exact ih ht (by rw [List.length_append, List.length_singleton]; omega)

/-- WAITO over a whole block: polls that see ORDY = 0 until ENGINE has stepped, then one that sees it up (rule R166). -/
theorem State.Collecting.waito_leadsTo {v b : Block} {s : State} (h : s.Collecting v b.toList) (rest : List HostOp)
    (reads : List Word) :
    Script.LeadsTo ⟨.waitBit 3 :: rest, reads⟩ s
      fun p t => p.ops = rest ∧ t.Delivering (xorBlock (invCipher engineConfig.key b) v).toList := by
  have hstep : Script.LeadsTo ⟨.waitBit 3 :: rest, reads⟩ s fun p t =>
      p.ops = .waitBit 3 :: rest ∧ t.Delivering (xorBlock (invCipher engineConfig.key b) v).toList := by
    refine .of_turn .engine (by decide) (fun p t => p.ops = .waitBit 3 :: rest ∧ t.Collecting v b.toList) ⟨rfl, h⟩ ?_ ?_
    · rintro u ⟨ops, polls⟩ r hreset hnot ⟨rfl, hr⟩
      cases u with
      | host =>
        rw [Script.turn_host_waito, hr.ordy_false]
        exact ⟨rfl, hr.after_stat⟩
      | engine => exact absurd rfl hnot
      | reset => exact absurd rfl hreset
    · rintro p r ⟨hops, hr⟩
      exact ⟨hops, hr.delivering_after_engine⟩
  refine hstep.trans ?_
  rintro ⟨ops, polls⟩ t ⟨rfl, ht⟩
  have hne : (xorBlock (invCipher engineConfig.key b) v).toList ≠ [] := List.ne_nil_of_length_pos (by simp)
  refine .of_host _ ht (fun r hr => hr.after_engine hne) fun r hr => ?_
  rw [Script.turn_host_waito, hr.ordy hne]
  exact ⟨rfl, hr.after_stat⟩

/-- POPBLK: the bytes left are read in order (rule R67). -/
theorem State.Delivering.pops_leadTo {left : List Byte} {s : State} (h : s.Delivering left) (reads : List Word) :
    Script.LeadsTo ⟨List.replicate left.length (.line .pop), reads⟩ s
      fun p _ => p = ⟨[], reads ++ left.map zextByte⟩ := by
  induction left generalizing s reads with
  | nil => exact .refl (by rw [List.map_nil, List.append_nil]; rfl)
  | cons x left ih =>
    have hne := List.cons_ne_nil x left
    have hone : Script.LeadsTo ⟨.line .pop :: List.replicate left.length (.line .pop), reads⟩ s
        fun p t => p = ⟨List.replicate left.length (.line .pop), reads ++ [zextByte x]⟩ ∧ t.Delivering left := by
      refine .of_host (State.Delivering (x :: left)) h (fun r hr => hr.after_engine hne) fun r hr => ?_
      obtain ⟨hx, hrest⟩ := (hr.withPort r.perr r.rdata []).deliverByte
      have hout : r.nextOut = x := hx
      rw [Script.turn_host_line, assemble, perform_pop_of_ordy r (hr.ordy hne), hout]
      exact ⟨rfl, hrest.withPort r.perr _ []⟩
    refine hone.trans ?_
    rintro p t ⟨rfl, ht⟩
    simpa using ih ht (reads ++ [zextByte x])

/-- Settles O37: PUSHBLK fills IBUF, WAITO lasts until the block step, POPBLK empties OBUF. -/
theorem oneBlockThroughTheStreams : Obligations.OneBlockThroughTheStreams := by
  intro s b sched hinv hirdy hifill horem hfair
  obtain ⟨hp, -, -⟩ := (irdy_iff s).mp hirdy
  have hempty : s.Collecting s.prev [] := ⟨hinv, hp, horem, rfl, hifill, by rw [hifill, List.take_zero]⟩
  have hpush := hempty.pushes_leadTo (bs := b.toList) (by simp) (.waitBit 3 :: Pseudo.popblk.expand) []
  have hblock := hpush.trans (R := fun p _ => ∃ polls,
      p = ⟨[], polls ++ (xorBlock (invCipher engineConfig.key b) s.prev).toList.map zextByte⟩) <| by
    rintro p t ⟨rfl, ht⟩
    refine (ht.waito_leadsTo _ _).trans ?_
    rintro ⟨ops, polls⟩ r ⟨rfl, hr⟩
    have hpop := hr.pops_leadTo polls
    rw [Vector.length_toList] at hpop
    exact hpop.trans fun p' _ hp' => .refl ⟨polls, hp'⟩
  rw [List.append_assoc]
  exact hblock sched hfair

end Sys2Proof.Machine
end

section
/-! What the obligations about the transactions rest on: the words of each transaction, what a violation does, the bits
of STATUS, and the next value of STATE (`40_host_commands.md` rules R60 to R71). -/

namespace Sys2Proof.Machine

/-! ### Decoding by the fields of the word -/

/-- No word stands for two transactions (rule R49), since what it stands for determines the encoding. -/
theorem Names.decode_eq {tw : TWord} {i : Instr} (h : Names tw i) : decode tw = i := by
  have henc : encode (decode tw) = encode i := (names_decode tw).encode_eq.trans h.encode_eq.symm
  rw [← decode_encode (decode tw) (decode_wf tw), henc, decode_encode i h.wf]

/-- The offsets of the registers are multiples of 4 below 0x1C (rule R16). -/
theorem offset_of_mappedAccess {d : Dir} {a : Offset} (h : mappedAccess d a = true) :
    a.toNat < 0x1C ∧ a.toNat % 4 = 0 := by
  cases d <;> simp only [mappedAccess, Bool.or_eq_true, beq_iff_eq] at h
  · rcases h with (((rfl | rfl) | rfl) | rfl) | rfl <;> decide
  · rcases h with (rfl | rfl) | rfl <;> decide

/-! ### Protocol violations -/

/-- A violation sets PERR and does nothing else; if it is a read, it reads as 0 (rules R31, R142). -/
theorem exec_of_violates {i : Instr} {s : State} (h : violates s i = true) :
    exec i s = .next { s with perr := true, rdata := if isRead i then some 0#32 else none } := by
  cases i with
  | start => exact exec_start_of_not_idle s (of_decide_eq_true h)
  | setlen n => exact exec_setlen_of_not_idle n s (of_decide_eq_true h)
  | push b => exact exec_push_of_not_irdy b s (by simpa [violates] using h)
  | pop => exact exec_pop_of_not_ordy s (by simpa [violates] using h)
  | illegal d _ => cases d <;> rfl
  | ctrlrsvd _ => rfl
  | clear | stat | getlen | geticnt | getocnt => cases h

/-! ### The bits of STATUS -/

/-- A flag as a word has bit 0 and no other. -/
theorem flagBit_bit (b : Bool) : ∀ i, (flagBit b).getLsbD i = (decide (i = 0) && b)
  | 0 => by cases b <;> rfl
  | i + 1 => by simp [flagBit, -BitVec.getLsbD_eq_getElem]

/-- STATUS bit by bit, in the places that rules R18 and R60 give. -/
theorem statusWord_bit (s : State) (i : Nat) (hi : i < 32) :
    s.statusWord.getLsbD i =
      match i with
      | 0 | 1 => (phaseCode s.phase).getLsbD i
      | 2 => s.irdy
      | 3 => s.ordy
      | 4 => s.busy
      | 5 => s.perr
      | 6 | 7 => false
      | k + 8 => s.errcode.getLsbD k := by
  have hphase (h : 2 ≤ i) : (phaseCode s.phase).getLsbD i = false := BitVec.getLsbD_of_ge _ _ h
  simp only [State.statusWord, BitVec.getLsbD_or, BitVec.getLsbD_shiftLeft, BitVec.getLsbD_setWidth, flagBit_bit, hi]
  grind

/-- A field of STATUS, from its bits. -/
theorem statusWord_extract {s : State} {a n : Nat} {x : BitVec n}
    (h : ∀ i, i < n → s.statusWord.getLsbD (i + a) = x.getLsbD i) : s.statusWord.extractLsb' a n = x := by
  refine BitVec.eq_of_getLsbD_eq fun i hi => ?_
  rw [BitVec.getLsbD_extractLsb', decide_eq_true hi, Bool.true_and, Nat.add_comm, h i hi]

theorem statusWord_phase (s : State) : s.statusWord.extractLsb' 0 2 = phaseCode s.phase :=
  statusWord_extract fun
    | 0, _ => statusWord_bit s 0 (by decide)
    | 1, _ => statusWord_bit s 1 (by decide)

theorem statusWord_errcode (s : State) : s.statusWord.extractLsb' 8 4 = s.errcode :=
  statusWord_extract fun i hi => statusWord_bit s (i + 8) (by omega)

/-- Bits 31:5 hold PERR and ERRCODE alone. -/
theorem statusWord_high_congr {s t : State} (hperr : s.perr = t.perr) (herr : s.errcode = t.errcode) :
    s.statusWord.extractLsb' 5 27 = t.statusWord.extractLsb' 5 27 := by
  refine statusWord_extract fun i hi => ?_
  rw [BitVec.getLsbD_extractLsb', decide_eq_true hi, Bool.true_and, Nat.add_comm 5 i,
    statusWord_bit s _ (by omega), statusWord_bit t _ (by omega)]
  match i with
  | 0 => exact hperr
  | 1 | 2 => rfl
  | k + 3 => exact congrArg (BitVec.getLsbD · k) herr

/-! ### The next value of STATE -/

/-- In the table of rule R71 every violation keeps STATE. -/
theorem stateTable_of_violates {i : Instr} {s : State} (h : violates s i = true) : stateTable s i = s.phase := by
  cases i with
  | start =>
    have hp : s.phase ≠ .idle := of_decide_eq_true h
    cases hs : s.phase <;> simp_all [stateTable]
  | pop =>
    have ho : s.ordy = false := by simpa [violates] using h
    cases hs : s.phase <;> simp [stateTable, hs, ho]
  | clear => cases h
  | ctrlrsvd _ | setlen _ | push _ | stat | getlen | geticnt | getocnt | illegal _ _ => rfl

/-- Every transaction moves STATE as the table of rule R71 says; a POP delivers in RUN only (rule R27 item f). -/
theorem exec_phase_eq_stateTable {i : Instr} {s t : State} (h : s.Inv) (ht : exec i s = .next t) :
    t.phase = stateTable s i := by
  cases i with
  | start =>
    rcases execStart_cases s t ht with ⟨hp, rfl⟩ | ⟨hp, hb, rfl⟩ | ⟨hp, hb, rfl⟩
    · exact (stateTable_of_violates (s := s) (i := .start) (decide_eq_true hp)).symm
    · simp [stateTable, hp, hb]
    · simp [stateTable, hp, hb]
  | setlen n => rcases execSetlen_cases n s t ht with ⟨-, rfl⟩ | ⟨-, rfl⟩ <;> rfl
  | push b => rcases execPush_cases b s t ht with ⟨-, rfl⟩ | ⟨-, rfl⟩ <;> rfl
  | pop =>
    rcases execPop_cases s t ht with ⟨ho, rfl⟩ | ⟨ho, rfl⟩
    · have hp := h.outInRun ((ordy_iff s).mp ho)
      simp [stateTable, State.phaseAfterPop, hp, ho]
    · exact (stateTable_of_violates (s := s) (i := .pop) (by simp [violates, ho])).symm
  | illegal d _ => cases d <;> cases ht <;> rfl
  | clear | ctrlrsvd _ | stat | getlen | geticnt | getocnt => cases ht; rfl

/-! ### The counters outside a message -/

/-- In IDLE and ERR the data registers and counters are blank (rule R27 items a and b). -/
theorem State.Inv.blank {s : State} (h : s.Inv) (hp : s.phase = .idle ∨ s.phase = .err) : s.Blank :=
  hp.elim (fun hp => ((inv_iff_of_idle s hp).mp h).1) (fun hp => ((inv_iff_of_err s hp).mp h).1)

/-- A full IBUF behind the last unread byte is a further block, so that byte does not end the message (rule R27 items c
and d). -/
theorem State.Inv.busy_deliverByte {s : State} (h : s.Inv) (ho : s.ordy = true) :
    s.deliverByte.busy = true ↔ s.orem.val = 1 ∧ s.ifill.val = 16 := by
  have hpos := (ordy_iff s).mp ho
  have hp := h.outInRun hpos
  obtain ⟨-, -, -, hfill, hacc, hunf⟩ := (inv_iff_of_run s hp).mp h
  have hocnt := toNat_add_one_of_lt hunf
  rw [busy_iff, deliverByte_orem_val s hpos, State.deliverByte_ifill, State.deliverByte_phase]
  constructor
  · rintro ⟨-, hfull, hread⟩
    omega
  · rintro ⟨hlast, hfull⟩
    have hmore : s.ocnt + 1#32 ≠ s.len := fun he => by
      have := congrArg BitVec.toNat he
      omega
    exact ⟨(if_neg hmore).trans hp, hfull, by omega⟩

end Sys2Proof.Machine
end

section
/-! The eleven transactions, one obligation for each: which words stand for it, its effect and frame on every path, and
the examples of the spec (`40_host_commands.md` rules R60 to R70); and the table of STATE (rule R71). -/

namespace Sys2Proof.Machine

/-! ### The reads without side effect -/

/-- Settles O1: the fields of STATUS, and what the block step makes of the flags among them. -/
theorem statReturnsStatus : Obligations.StatReturnsStatus := by
  refine ⟨fun tw hd ha => (Names.stat hd ha).decode_eq, fun s => ⟨s.statusWord, rfl, statusWord_phase s, ?_, ?_, ?_, ?_,
    ?_, statusWord_errcode s, ?_⟩, fun s hb => ?_, by decide, by decide⟩
  · rw [statusWord_bit s 2 (by decide)]; exact irdy_iff s
  · rw [statusWord_bit s 3 (by decide)]; exact ordy_iff s
  · rw [statusWord_bit s 4 (by decide)]; exact busy_iff s
  · exact statusWord_bit s 5 (by decide)
  · exact statusWord_extract fun
      | 0, _ => statusWord_bit s 6 (by decide)
      | 1, _ => statusWord_bit s 7 (by decide)
  · exact statusWord_extract fun i hi => (statusWord_bit s (i + 12) (by omega)).trans <| by
      rw [BitVec.getLsbD_zero]; exact BitVec.getLsbD_of_ge _ _ (by omega)
  · obtain ⟨hi, ho⟩ := flags_of_busy s hb
    obtain ⟨hp, -, -⟩ := (busy_iff s).mp hb
    refine ⟨?_, ?_, ?_, ?_, statusWord_high_congr rfl rfl⟩
    · exact statusWord_extract fun
        | 0, _ => (statusWord_bit s 2 (by decide)).trans hi
        | 1, _ => (statusWord_bit s 3 (by decide)).trans ho
        | 2, _ => (statusWord_bit s 4 (by decide)).trans hb
    · exact statusWord_extract fun
        | 0, _ => statusWord_bit (s.blkStep engineConfig) 3 (by decide)
        | 1, _ => (statusWord_bit _ 4 (by decide)).trans (busy_blkStep engineConfig s)
    · rw [statusWord_bit _ 2 (by decide)]
      exact (irdy_iff _).trans (by simp [hp])
    · rw [statusWord_phase, statusWord_phase, State.blkStep_phase]

/-- Settles O2: a refused START keeps LEN. -/
theorem getlenReturnsLen : Obligations.GetlenReturnsLen := by
  refine ⟨fun tw hd ha => (Names.getlen hd ha).decode_eq, fun s => rfl, fun s t hp hb ht => ?_, by decide⟩
  cases (exec_start_of_badLength s hp hb).symm.trans ht
  rfl

/-- Settles O3: the values by STATE are those of the invariants. -/
theorem geticntReturnsIcnt : Obligations.GeticntReturnsIcnt := by
  refine ⟨fun tw hd ha => (Names.geticnt hd ha).decode_eq, fun s => rfl, fun s h hp => (h.blank hp).icnt,
    fun s h hp => ?_, by decide⟩
  obtain ⟨-, -, -, hicnt, -⟩ := (inv_iff_of_done s hp).mp h
  exact hicnt

/-- Settles O4, as O3 with the output counter. -/
theorem getocntReturnsOcnt : Obligations.GetocntReturnsOcnt := by
  refine ⟨fun tw hd ha => (Names.getocnt hd ha).decode_eq, fun s => rfl, fun s h hp => (h.blank hp).ocnt,
    fun s h hp => ?_, by decide +kernel⟩
  obtain ⟨-, -, hocnt, -⟩ := (inv_iff_of_done s hp).mp h
  exact hocnt

/-! ### The commands -/

/-- Settles O5: the three paths of START are told apart by STATE and the test of LEN. -/
theorem startOpensOrRefuses : Obligations.StartOpensOrRefuses := by
  refine ⟨fun tw hd ha hl => (Names.start hd ha hl).decode_eq, fun s hp => ⟨_, exec_of_violates (decide_eq_true hp)⟩,
    fun s hp hb => ⟨_, exec_start_of_badLength s hp ((badLength_iff s.len).mpr hb)⟩, fun s hp hpos hlen => ?_, by decide⟩
  have hgood := (badLength_false_iff s.len).mpr ⟨hpos, hlen⟩
  refine ⟨_, exec_start_of_goodLength s hp hgood, rfl, ?_, rfl, rfl⟩
  exact (irdy_iff (s.beginMessage engineConfig)).mpr ⟨rfl, Nat.zero_lt_succ 15, hpos⟩

/-- Settles O6: CLEAR leaves nothing of the state it is performed in, ERR or not. -/
theorem clearRestoresReset : Obligations.ClearRestoresReset := by
  refine ⟨fun tw hd ha hl => (Names.clear hd ha hl).decode_eq, fun s => ⟨_, rfl, rfl, rfl, rfl⟩, fun s _ => ?_⟩
  have hclear : s.perform (.host (encode .clear)) = State.reset := perform_encode .clear s _ rfl rfl
  simp only [State.performAll, hclear]
  decide

/-- Settles O7: a reserved code is a violation in every state. -/
theorem ctrlrsvdSetsPerr : Obligations.CtrlrsvdSetsPerr := by
  refine ⟨fun tw hd ha h1 h2 => (Names.ctrlrsvd hd ha ?_).decode_eq, fun cmd s => ⟨_, exec_of_violates rfl⟩,
    by decide, by decide⟩
  simp [reservedCmd, h1, h2]

/-- Settles O8: SETLEN stays in IDLE, so that another may follow. -/
theorem setlenStoresInIdle : Obligations.SetlenStoresInIdle := by
  refine ⟨fun tw hd ha => (Names.setlen hd ha).decode_eq, fun n s hp => ⟨_, exec_setlen_of_idle n s hp⟩,
    fun n s hp => ⟨_, exec_of_violates (decide_eq_true hp)⟩, fun n m s t hp ht => ?_, by decide, by decide⟩
  cases (exec_setlen_of_idle n s hp).symm.trans ht
  exact ⟨_, exec_setlen_of_idle m (s.storeLen n).noAnswer hp⟩

/-! ### The byte streams -/

/-- Settles O9: neither IFILL nor ICNT wraps on the accepted path. -/
theorem pushAcceptsOrDrops : Obligations.PushAcceptsOrDrops := by
  refine ⟨fun tw hd ha => (Names.push hd ha).decode_eq, fun b s hp hroom hmore => ?_, fun b s hnot => ?_, by decide⟩
  · have hirdy := (irdy_iff s).mpr ⟨hp, hroom, hmore⟩
    have hifill := acceptByte_ifill_val s b hroom
    have hicnt : (s.acceptByte b).icnt.toNat = s.icnt.toNat + 1 := toNat_add_one_of_lt hmore
    refine ⟨_, exec_push_of_irdy b s hirdy, rfl, fun i _ => byteAt_setByte _ _ _ _ hroom, hifill, hicnt, ?_, ?_⟩
    · refine (irdy_iff (s.acceptByte b)).trans ?_
      rw [hifill, hicnt]
      simp [hp]
    · refine (busy_iff (s.acceptByte b)).trans ?_
      rw [hifill]
      simp [hp]
  · have hirdy : s.irdy = false := Bool.eq_false_iff.mpr (mt (irdy_iff s).mp hnot)
    exact ⟨_, exec_of_violates (i := .push b) (by simp [violates, hirdy])⟩

/-- Settles O10: the exact count and the flags after a delivery come from the invariants, which the delivery keeps. -/
theorem popDeliversOrFlags : Obligations.PopDeliversOrFlags := by
  refine ⟨fun tw hd ha => (Names.pop hd ha).decode_eq, fun s hpos => ?_, fun s hnone => ?_, by decide +kernel⟩
  · have ho := (ordy_iff s).mpr hpos
    have horem := deliverByte_orem_val s hpos
    refine ⟨_, exec_pop_of_ordy s ho, rfl, horem, ?_, fun h => ?_, fun h => h.busy_deliverByte ho, fun h hperr hlast => ?_⟩
    · refine (ordy_iff s.deliverByte).trans ?_
      omega
    · obtain ⟨-, -, -, -, -, hunf⟩ := (inv_iff_of_run s (h.outInRun hpos)).mp h
      exact toNat_add_one_of_lt hunf
    · have hdone : s.deliverByte.phase = .done := if_pos hlast
      have hinv := h.deliverByte ho
      obtain ⟨hi', ho', hb'⟩ := hinv.quiet (hdone.trans_ne (by decide))
      obtain ⟨herr, -⟩ := (inv_iff_of_done _ hdone).mp hinv
      have hstatus := statusWord_of_quiet s.deliverByte hi' ho' hb'
      rw [hdone, herr, State.deliverByte_perr, hperr] at hstatus
      exact hstatus
  · exact exec_of_violates (i := .pop) (by simp [violates, State.ordy, hnone])

/-! ### Every other transaction -/

/-- Settles O11: the words listed are those whose access the map does not hold. -/
theorem illegalSetsPerrOnly : Obligations.IllegalSetsPerrOnly := by
  refine ⟨fun tw h => (Names.illegal ?_).decode_eq, fun a s => exec_of_violates rfl, fun a s => ⟨_, exec_of_violates rfl⟩,
    by decide, by decide⟩
  rcases h with ⟨hd, ha⟩ | ⟨hd, ha⟩ | hrange | hmisaligned
  · rw [hd]; rcases ha with ha | ha <;> rw [ha] <;> rfl
  · rw [hd]; rcases ha with ha | ha | ha | ha <;> rw [ha] <;> rfl
  · exact Bool.eq_false_iff.mpr fun hm => by have := (offset_of_mappedAccess hm).1; omega
  · exact Bool.eq_false_iff.mpr fun hm => hmisaligned (offset_of_mappedAccess hm).2

/-! ### The state machine -/

/-- Settles O24: the table holds on every path of every transaction, and ENGINE's turn keeps STATE. -/
theorem stateChangesAsTheTableSays : Obligations.StateChangesAsTheTableSays := by
  refine ⟨fun i s h => ?_, fun s => ⟨?_, fun hp => ?_⟩, fun s => rfl, fun s h hp => h.quiet hp⟩
  · obtain ⟨t, ht⟩ := exec_next i s
    refine ⟨t, ht, exec_phase_eq_stateTable h ht, fun hv => ?_⟩
    cases (exec_of_violates hv).symm.trans ht
    rfl
  · rcases engineTurn_cases engineConfig s with ⟨-, ht⟩ | ⟨-, ht⟩ <;> rw [ht]
    rfl
  · exact engineTurn_of_not_busy engineConfig s (by simp [State.busy, hp])

end Sys2Proof.Machine
end

section
/-! The events of one message (rules R85, R86): what each does to the streams, to LEN and to PERR, and that ERRCODE, PERR
and the port have no influence on the bytes delivered. -/

namespace Sys2Proof.Machine

/-! ### The transactions of a message -/

/-- The transactions of a started message: PUSH, POP and the reads without side effect (rule R85). -/
def isOfMessage : Instr → Bool
  | .push _ | .pop | .stat | .getlen | .geticnt | .getocnt => true
  | .start | .clear | .ctrlrsvd _ | .setlen _ | .illegal _ _ => false

theorem inMessage_host (tw : TWord) : Event.inMessage (.host tw) = isOfMessage (decode tw) := by
  cases hi : decode tw <;> simp only [Event.inMessage, hi] <;> rfl

section
variable {i : Instr} {s t : State}

/-- A transaction of a message leaves LEN alone. -/
theorem exec_len_of_inMessage (hi : isOfMessage i = true) (ht : exec i s = .next t) : t.len = s.len := by
  cases i with
  | push b => rcases execPush_cases b s t ht with ⟨-, rfl⟩ | ⟨-, rfl⟩ <;> rfl
  | pop => rcases execPop_cases s t ht with ⟨-, rfl⟩ | ⟨-, rfl⟩ <;> rfl
  | stat | getlen | geticnt | getocnt => cases ht; rfl
  | start | clear | ctrlrsvd _ | setlen _ | illegal _ _ => cases hi

/-- PERR is sticky: no transaction of a message takes it away (rule R15). -/
theorem exec_perr_of_inMessage (hi : isOfMessage i = true) (ht : exec i s = .next t) (hs : s.perr = true) :
    t.perr = true := by
  cases i with
  | push b => rcases execPush_cases b s t ht with ⟨-, rfl⟩ | ⟨-, rfl⟩ <;> simp [hs]
  | pop => rcases execPop_cases s t ht with ⟨-, rfl⟩ | ⟨-, rfl⟩ <;> simp [hs]
  | stat | getlen | geticnt | getocnt => cases ht; exact hs
  | start | clear | ctrlrsvd _ | setlen _ | illegal _ _ => cases hi

/-- ERRCODE, PERR and the port have no influence on what a transaction of a message does to the rest, nor on what a POP
answers. -/
theorem exec_withFlags (hi : isOfMessage i = true) (ht : exec i s = .next t) (c : BitVec 4) (p : Bool)
    (r : Option Word) :
    ∃ p' r', exec i { s with errcode := c, perr := p, rdata := r } =
      .next { t with errcode := c, perr := p', rdata := r' } ∧ (i = .pop → r' = t.rdata) := by
  cases i with
  | push b =>
    rcases execPush_cases b s t ht with ⟨hirdy, rfl⟩ | ⟨hirdy, rfl⟩
    · exact ⟨_, _, exec_push_of_irdy b { s with errcode := c, perr := p, rdata := r } hirdy, nofun⟩
    · exact ⟨_, _, exec_push_of_not_irdy b { s with errcode := c, perr := p, rdata := r } hirdy, nofun⟩
  | pop =>
    rcases execPop_cases s t ht with ⟨hordy, rfl⟩ | ⟨hordy, rfl⟩
    · exact ⟨_, _, exec_pop_of_ordy { s with errcode := c, perr := p, rdata := r } hordy, fun _ => rfl⟩
    · exact ⟨_, _, exec_pop_of_not_ordy { s with errcode := c, perr := p, rdata := r } hordy, fun _ => rfl⟩
  | stat | getlen | geticnt | getocnt => cases ht; exact ⟨_, _, rfl, nofun⟩
  | start | clear | ctrlrsvd _ | setlen _ | illegal _ _ => cases hi

end

/-! ### The events of a message -/

theorem engineTurn_len (c : Config) (s : State) : (s.engineTurn c).len = s.len := by
  rcases engineTurn_cases c s with ⟨-, ht⟩ | ⟨-, ht⟩ <;> rw [ht]
  rfl

theorem engineTurn_perr (c : Config) (s : State) : (s.engineTurn c).perr = s.perr := by
  rcases engineTurn_cases c s with ⟨-, ht⟩ | ⟨-, ht⟩ <;> rw [ht]
  rfl

theorem perform_len_of_inMessage {e : Event} (he : e.inMessage = true) (s : State) : (s.perform e).len = s.len := by
  cases e with
  | engine => exact engineTurn_len engineConfig { s with agenda := [] }
  | reset => cases he
  | host tw => exact exec_len_of_inMessage (s := { s with agenda := [] }) (inMessage_host tw ▸ he) (exec_eq_perform tw s)

theorem perform_perr_of_inMessage {e : Event} (he : e.inMessage = true) {s : State} (hs : s.perr = true) :
    (s.perform e).perr = true := by
  cases e with
  | engine => exact (engineTurn_perr engineConfig { s with agenda := [] }).trans hs
  | reset => cases he
  | host tw =>
    exact exec_perr_of_inMessage (s := { s with agenda := [] }) (inMessage_host tw ▸ he) (exec_eq_perform tw s) hs

theorem performAll_len_of_inMessage {es : List Event} (hes : ∀ e ∈ es, e.inMessage = true) (s : State) :
    (s.performAll es).len = s.len := by
  induction es generalizing s with
  | nil => rfl
  | cons e es ih =>
    obtain ⟨he, hes⟩ := List.forall_mem_cons.mp hes
    exact (ih hes _).trans (perform_len_of_inMessage he s)

/-- A message that ends without a violation had none before. -/
theorem perr_of_performAll_perr {es : List Event} (hes : ∀ e ∈ es, e.inMessage = true) {s : State}
    (h : (s.performAll es).perr = false) : s.perr = false := by
  induction es generalizing s with
  | nil => exact h
  | cons e es ih =>
    obtain ⟨he, hes⟩ := List.forall_mem_cons.mp hes
    by_contra hset
    have hstep := perform_perr_of_inMessage he (by simpa using hset)
    exact Bool.false_ne_true ((ih hes h).symm.trans hstep)

/-! ### The streams of a message without violation -/

/-- What a word does depends on the transaction it stands for alone (rule R50). -/
theorem perform_host_congr {tw tw' : TWord} (h : decode tw = decode tw') (s : State) :
    s.perform (.host tw) = s.perform (.host tw') :=
  Host.Outcome.next.inj ((exec_eq_perform tw s).symm.trans (h ▸ exec_eq_perform tw' s))

theorem popped_host_congr {tw tw' : TWord} (h : decode tw = decode tw') (s : State) :
    Event.popped s (.host tw) = Event.popped s (.host tw') := by
  rw [Event.popped, Event.popped, Event.instr?, Event.instr?, h, perform_host_congr h s]

theorem popped_of_decode_ne_pop {tw : TWord} (h : decode tw ≠ .pop) (s : State) : Event.popped s (.host tw) = [] :=
  if_neg fun he => h (Option.some.inj he)

theorem violates_withAgenda (s : State) (i : Instr) (a : List Event) :
    violates { s with agenda := a } i = violates s i := by
  cases i <;> rfl

/-- A transaction that leaves PERR at 0 violated nothing (rule R142). -/
theorem violates_of_perform_perr {tw : TWord} {s : State} (h : (s.perform (.host tw)).perr = false) :
    violates s (decode tw) = false := by
  by_contra hv
  have hv : violates { s with agenda := [] } (decode tw) = true := by simpa [violates_withAgenda] using hv
  rw [perform_host s _ tw (exec_of_violates hv)] at h
  cases h

/-- In a message without violation every byte offered is sent, and every byte that a POP returns is got (rule R35). -/
theorem record_of_inMessage {tw : TWord} {s : State} (he : Event.inMessage (.host tw) = true)
    (hperr : (s.perform (.host tw)).perr = false) (h : Streams) :
    h.record s (decode tw) = ⟨h.sent ++ Event.pushed (.host tw), h.got ++ Event.popped s (.host tw)⟩ := by
  have hv := violates_of_perform_perr hperr
  rw [inMessage_host] at he
  cases hi : decode tw with
  | push b =>
    have hirdy : s.irdy = true := by simpa [violates, hi] using hv
    rw [popped_of_decode_ne_pop (by simp [hi])]
    simp [Streams.record, Event.pushed, hi, hirdy]
  | pop =>
    have hordy : s.ordy = true := by simpa [violates, hi] using hv
    rw [popped_host_congr (hi.trans (decode_encode .pop rfl).symm), popped_of_ordy s hordy]
    simp [Streams.record, Event.pushed, hi, hordy]
  | stat | getlen | geticnt | getocnt =>
    rw [popped_of_decode_ne_pop (by simp [hi])]
    simp [Streams.record, Event.pushed, hi]
  | start | clear | ctrlrsvd _ | setlen _ | illegal _ _ => rw [hi] at he; cases he

/-- One event of a message keeps the stream law, with the byte it moved. -/
theorem StreamInv.perform_inMessage {e : Event} {s : State} {h : Streams} (hs : StreamInv s h)
    (he : e.inMessage = true) (hperr : (s.perform e).perr = false) :
    StreamInv (s.perform e) ⟨h.sent ++ e.pushed, h.got ++ e.popped s⟩ := by
  cases e with
  | engine =>
    simpa [Event.pushed, Event.popped, Event.instr?, perform_engine] using (hs.withAgenda []).engineTurn
  | reset => cases he
  | host tw =>
    rw [← record_of_inMessage he hperr, ← record_withAgenda s h (decode tw) []]
    exact (hs.withAgenda []).exec (exec_eq_perform tw s)

/-- The events of a message without violation keep the stream law, with the bytes pushed and the bytes popped. -/
theorem StreamInv.performAll_inMessage {es : List Event} {s : State} {h : Streams} (hs : StreamInv s h)
    (hes : ∀ e ∈ es, e.inMessage = true) (hperr : (s.performAll es).perr = false) :
    StreamInv (s.performAll es) ⟨h.sent ++ pushedBytes es, h.got ++ poppedBytes s es⟩ := by
  induction es generalizing s h with
  | nil => simpa [pushedBytes, poppedBytes, State.performAll] using hs
  | cons e es ih =>
    obtain ⟨he, hes⟩ := List.forall_mem_cons.mp hes
    have hrest := ih (hs.perform_inMessage he (perr_of_performAll_perr hes hperr)) hes hperr
    rw [List.append_assoc, List.append_assoc] at hrest
    exact hrest

/-! ### Whole messages -/

/-- START in IDLE with a good length opens a message (rule R61). -/
theorem perform_start_of_goodLength (s : State) (hp : s.phase = .idle) (hb : badLength s.len = false) :
    s.perform (.host (encode .start)) = (State.beginMessage engineConfig { s with agenda := [] }).noAnswer :=
  perform_encode .start s _ rfl (exec_start_of_goodLength { s with agenda := [] } hp hb)

/-- SETLEN and START from reset, with a good length, open a message (rules R61, R64). -/
theorem startedWith_eq {n : Word} (hn : badLength n = false) :
    startedWith n = ((State.reset.storeLen n).noAnswer.beginMessage engineConfig).noAnswer := by
  rw [startedWith, State.performAll, perform_encode (.setlen n) State.reset _ rfl (exec_setlen_of_idle n _ rfl)]
  exact perform_start_of_goodLength (State.reset.storeLen n).noAnswer rfl hn

theorem streamInv_startedWith {n : Word} (hn : badLength n = false) : StreamInv (startedWith n) .empty := by
  rw [startedWith_eq hn]
  exact ((inv_reset.storeLen n rfl).noAnswer.streamInv_beginMessage rfl hn).noAnswer

/-- No byte is delivered before its whole block was accepted (rules R27 item c, R85). -/
theorem State.Inv.ocnt_le_whole_blocks {s : State} (h : s.Inv) : s.ocnt.toNat ≤ 16 * (s.icnt.toNat / 16) := by
  cases hp : s.phase with
  | idle => simp [(h.blank (.inl hp)).ocnt]
  | err => simp [(h.blank (.inr hp)).ocnt]
  | run =>
    obtain ⟨-, -, -, hout, -, hwhole, -⟩ := h.message (.inl hp)
    omega
  | done =>
    obtain ⟨-, -, -, hout, -, hwhole, -⟩ := h.message (.inr hp)
    omega

/-- In DONE all of C is accepted and D is its whole plaintext (rules R27 item e, R35). -/
theorem StreamInv.of_done {s : State} {h : Streams} (hs : StreamInv s h) (hp : s.phase = .done) :
    h.sent.length = s.len.toNat ∧ h.got = cbcDecrypt engineConfig.key engineConfig.iv h.sent := by
  obtain ⟨-, hlen, hocnt, hicnt, -, horem⟩ := (inv_iff_of_done s hp).mp hs.inv
  obtain ⟨-, hwhole⟩ := (badLength_false_iff s.len).mp hlen
  have hsent : h.sent.length = s.len.toNat := hs.sentCount.trans (congrArg BitVec.toNat hicnt)
  have hall : 16 * ((s.ocnt.toNat + s.orem.val) / 16) = h.sent.length := by
    rw [hocnt, horem, Fin.val_zero]; omega
  have hplain : s.steppedPlain h = cbcDecrypt engineConfig.key engineConfig.iv h.sent := by
    rw [State.steppedPlain, hall, List.take_length]
  refine ⟨hsent, ?_⟩
  rw [hs.delivered, hplain, List.take_of_length_le]
  rw [length_cbcDecrypt, hocnt]; omega

/-- Settles O38: the stream law holds at every point of the message, and in DONE it says that D is the plaintext. -/
theorem wholeMessageIsDecrypted : Obligations.WholeMessageIsDecrypted := by
  intro n es hpos hwhole hes hdone hperr
  have hn := (badLength_false_iff n).mpr ⟨hpos, hwhole⟩
  have hlaw {fs : List Event} (hfs : ∀ e ∈ fs, e.inMessage = true)
      (hquiet : ((startedWith n).performAll fs).perr = false) :
      StreamInv ((startedWith n).performAll fs) ⟨pushedBytes fs, poppedBytes (startedWith n) fs⟩ :=
    (streamInv_startedWith hn).performAll_inMessage hfs hquiet
  have hlen : ((startedWith n).performAll es).len = n := by
    rw [performAll_len_of_inMessage hes, startedWith_eq hn]; rfl
  obtain ⟨hsent, hgot⟩ := (hlaw hes hperr).of_done hdone
  refine ⟨hlen ▸ hsent, hgot, ?_⟩
  rintro es₁ es₂ rfl
  obtain ⟨hes₁, hes₂⟩ := List.forall_mem_append.mp hes
  rw [performAll_append] at hperr
  have hbefore := hlaw hes₁ (perr_of_performAll_perr hes₂ hperr)
  have hcount := hbefore.inv.ocnt_le_whole_blocks
  rwa [← hbefore.gotCount, ← hbefore.sentCount] at hcount

/-! ### Messages apart from what went before -/

/-- ERRCODE, PERR and the port have no influence on what an event of a message does to the rest, nor on the byte that a
POP returns. -/
theorem perform_withFlags {e : Event} (he : e.inMessage = true) (s : State) (c : BitVec 4) (p : Bool)
    (r : Option Word) :
    ∃ p' r', State.perform { s with errcode := c, perr := p, rdata := r } e =
        { s.perform e with errcode := c, perr := p', rdata := r' } ∧
      e.popped { s with errcode := c, perr := p, rdata := r } = e.popped s := by
  cases e with
  | engine =>
    refine ⟨p, r, ?_, rfl⟩
    rw [perform_engine, perform_engine]
    rcases engineTurn_cases engineConfig { s with agenda := [] } with ⟨hb, ht⟩ | ⟨hb, ht⟩ <;> rw [ht]
    · exact engineTurn_of_busy engineConfig { s with errcode := c, perr := p, rdata := r, agenda := [] } hb
    · exact engineTurn_of_not_busy engineConfig { s with errcode := c, perr := p, rdata := r, agenda := [] } hb
  | reset => cases he
  | host tw =>
    obtain ⟨p', r', hexec, hpop⟩ := exec_withFlags (inMessage_host tw ▸ he) (exec_eq_perform tw s) c p r
    have hperform := perform_host { s with errcode := c, perr := p, rdata := r } _ tw hexec
    refine ⟨p', r', hperform, ?_⟩
    rw [Event.popped, Event.popped, hperform]
    split_ifs with hinstr
    · rw [hpop (Option.some.inj hinstr)]
    · rfl

theorem poppedBytes_withFlags {es : List Event} (hes : ∀ e ∈ es, e.inMessage = true) (s : State) (c : BitVec 4)
    (p : Bool) (r : Option Word) :
    poppedBytes { s with errcode := c, perr := p, rdata := r } es = poppedBytes s es := by
  induction es generalizing s p r with
  | nil => rfl
  | cons e es ih =>
    obtain ⟨he, hes⟩ := List.forall_mem_cons.mp hes
    obtain ⟨p', r', hperform, hpopped⟩ := perform_withFlags he s c p r
    rw [poppedBytes, poppedBytes, hpopped, hperform, ih hes]

/-- Two states that a host cannot tell apart deliver the same bytes. -/
theorem SameToHost.poppedBytes_eq {s t : State} (h : SameToHost s t) (es : List Event) :
    poppedBytes s es = poppedBytes t es := by
  induction es generalizing s t with
  | nil => rfl
  | cons e es ih =>
    have hstep := h.perform e
    rw [poppedBytes, poppedBytes, ih hstep, Event.popped, Event.popped, hstep.rdata]

/-- Where a message begins, two engines with the same LEN differ, to a host, in ERRCODE and PERR at most. -/
theorem sameToHost_beginMessage {s t : State} (hlen : s.len = t.len) (c : Config) :
    SameToHost (State.noAnswer (State.beginMessage c { s with errcode := t.errcode, perr := t.perr, agenda := [] }))
      (State.noAnswer (State.beginMessage c { t with agenda := [] })) where
  phase := rfl
  errcode := rfl
  perr := rfl
  len := hlen
  icnt := rfl
  ocnt := rfl
  ifill := rfl
  orem := rfl
  prev := fun _ => rfl
  ibuf := fun i hi => absurd hi (Nat.not_lt_zero i)
  obuf := fun i hi => (byteAt_of_ge _ i hi).trans (byteAt_of_ge _ i hi).symm
  rdata := rfl
  agenda := rfl

/-- Settles O39: what START leaves of the past is residue, ERRCODE and PERR, and none of it reaches a delivered byte. -/
theorem messagesAreIndependent : Obligations.MessagesAreIndependent := by
  intro s t es hs ht hlen hgood hes
  rw [perform_start_of_goodLength s hs hgood, perform_start_of_goodLength t ht (hlen ▸ hgood),
    ← (sameToHost_beginMessage hlen engineConfig).poppedBytes_eq es]
  exact (poppedBytes_withFlags hes _ t.errcode t.perr none).symm

end Sys2Proof.Machine
end

section
/-! The block step as a whole (rules R80, R166): while it is enabled nothing but ENGINE, CLEAR and reset touches more
than PERR and the port. -/

namespace Sys2Proof.Machine

/-- While a block step is enabled the ready flags are down, and a transaction but CLEAR changes PERR and the port alone
(rule R166). -/
theorem exec_of_busy {i : Instr} {s t : State} (hb : s.busy = true) (hi : i ≠ .clear) (ht : exec i s = .next t) :
    ∃ p r, t = { s with perr := p, rdata := r } := by
  obtain ⟨hp, -, -⟩ := (busy_iff s).mp hb
  obtain ⟨hirdy, hordy⟩ := flags_of_busy s hb
  rcases exec_cases_of_run hp ht with hclear | ⟨b, -, hup, -⟩ | ⟨-, hup, -⟩ | hport
  · exact absurd hclear hi
  · cases hirdy.symm.trans hup
  · cases hordy.symm.trans hup
  · exact hport

theorem busy_perform {s : State} {e : Event} (hb : s.busy = true) (hengine : e ≠ .engine) (hreset : e ≠ .reset)
    (hclear : e.instr? ≠ some .clear) : (s.perform e).busy = true := by
  cases e with
  | engine => exact absurd rfl hengine
  | reset => exact absurd rfl hreset
  | host tw =>
    obtain ⟨p, r, ht⟩ := exec_of_busy (s := { s with agenda := [] }) hb (fun hi => hclear (congrArg some hi))
      (exec_eq_perform tw s)
    rw [ht]
    exact hb

/-- Once BUSY has risen it stays up until ENGINE's turn, CLEAR or reset (rule R166). -/
theorem busy_performAll {s : State} {es : List Event} (hb : s.busy = true)
    (hes : ∀ e ∈ es, e ≠ .engine ∧ e ≠ .reset ∧ e.instr? ≠ some .clear) : (s.performAll es).busy = true := by
  induction es generalizing s with
  | nil => exact hb
  | cons e es ih =>
    obtain ⟨⟨hengine, hreset, hclear⟩, hes⟩ := List.forall_mem_cons.mp hes
    exact ih (busy_perform hb hengine hreset hclear) hes

theorem perform_engine_of_busy {s : State} (hb : s.busy = true) :
    s.perform .engine = { s.blkStep engineConfig with agenda := [] } :=
  engineTurn_of_busy engineConfig { s with agenda := [] } hb

/-- Settles O32: BUSY is the condition of the block step, and no event in between lowers it. -/
theorem blockStepDecryptsOneBlock : Obligations.BlockStepDecryptsOneBlock := by
  refine ⟨fun s hp hfull hread => ?_, fun s hnot => ?_, fun s es hb hes => ?_, by decide +kernel⟩
  · rw [engineTurn_of_busy _ s ((busy_iff s).mpr ⟨hp, hfull, hread⟩)]
    refine ⟨_, rfl, rfl, fun i hi => byteAt_xorBlock _ _ i hi, busy_blkStep _ s, rfl, ?_⟩
    simp [irdy_iff, hp]
  · exact engineTurn_of_not_busy _ s (Bool.eq_false_iff.mpr (mt (busy_iff s).mp hnot))
  · have hbusy := busy_performAll hb hes
    rw [performAll_append]
    exact ⟨hbusy, perform_engine_of_busy hbusy⟩

end Sys2Proof.Machine
end

section
/-! CBC decryption byte by byte (rules R82, R89): each plaintext byte depends on its own block and the one before it. -/

namespace Sys2Proof.Machine

/-- Byte i of a block in its list of bytes, read with a default. -/
theorem getD_toList_append (b : Block) (l : List Byte) (i : Nat) (h : i < 16) :
    (b.toList ++ l).getD i 0#8 = byteAt b i := by
  rw [List.getD_append _ _ _ _ (by simpa using h), List.getD_eq_getElem _ _ (by simpa using h), Vector.getElem_toList,
    byteAt_eq_getElem b i h]

/-- A first whole block is decrypted with the initial chaining value. -/
theorem cbcDecrypt_getD_first (k v : Block) (l : List Byte) (i : Nat) (hl : 16 ≤ l.length) (hi : i < 16) :
    (cbcDecrypt k v l).getD i 0#8 = byteAt (invCipher k (blockOfList l)) i ^^^ byteAt v i := by
  have hfirst : (l.take 16).length = 16 := by rw [List.length_take]; omega
  have hblock : cbcDecrypt k v (l.take 16) = (xorBlock (invCipher k (blockOfList l)) v).toList := by
    rw [cbcDecrypt, blocksOf_of_length _ hfirst, blockOfList_take]
    exact List.append_nil _
  rw [← List.take_append_drop 16 l, cbcDecrypt_append _ _ _ _ (by omega), hblock, getD_toList_append _ _ i hi,
    byteAt_xorBlock _ _ i hi, List.take_append_drop]

/-- Byte i of plaintext block b, with the chaining value written out (rule R82). -/
theorem cbcDecrypt_getD (k v : Block) (c : List Byte) (b i : Nat) (hb : 16 * (b + 1) ≤ c.length) (hi : i < 16) :
    (cbcDecrypt k v c).getD (16 * b + i) 0#8 =
      byteAt (invCipher k (blockOfList (c.drop (16 * b)))) i ^^^
        (if b = 0 then byteAt v i else c.getD (16 * (b - 1) + i) 0#8) := by
  have hinit : (c.take (16 * b)).length = 16 * b := by rw [List.length_take]; omega
  have hplain : (cbcDecrypt k v (c.take (16 * b))).length = 16 * b := by rw [length_cbcDecrypt, hinit]; omega
  have hchain : byteAt ((blocksOf (c.take (16 * b))).getLastD v) i =
      if b = 0 then byteAt v i else c.getD (16 * (b - 1) + i) 0#8 := by
    rw [getLastD_blocksOf_take v c (16 * b) (by omega) (by omega)]
    rcases b with _ | b
    · rfl
    · rw [if_neg (by omega), if_neg (by omega), byteAt_blockOfList _ i hi, List.getD_eq_getElem?_getD,
        List.getElem?_drop, ← List.getD_eq_getElem?_getD]
      rfl
  conv_lhs => rw [← List.take_append_drop (16 * b) c]
  rw [cbcDecrypt_append _ _ _ _ (by omega), List.getD_append_right _ _ _ _ (by omega), hplain, Nat.add_sub_cancel_left,
    cbcDecrypt_getD_first _ _ _ i (by rw [List.length_drop]; omega) hi, hchain]

/-- Settles O44: the blocks before block b are cut off, and of what is left block b is the first. -/
theorem cbcDecryptByteByByte : Obligations.CbcDecryptByteByByte := by
  intro k v c n hc
  exact ⟨by rw [length_cbcDecrypt]; omega, fun b i hb hi => cbcDecrypt_getD k v c b i (by omega) hi⟩

/-- The block at place m, from its sixteen bytes. -/
theorem blockOfList_drop_congr {c c' : List Byte} {m : Nat}
    (h : ∀ i, i < 16 → c'.getD (m + i) 0#8 = c.getD (m + i) 0#8) :
    blockOfList (c'.drop m) = blockOfList (c.drop m) := by
  refine block_ext _ _ fun i hi => ?_
  have := h i hi
  rw [byteAt_blockOfList _ i hi, byteAt_blockOfList _ i hi]
  simpa [List.getD_eq_getElem?_getD] using this

/-- Settles O46: rule R82 on both ciphertexts, with the blocks that they share. -/
theorem cbcDamageIsLocal : Obligations.CbcDamageIsLocal := by
  intro k v c c' n b hc hc' hb hsame
  have hplain (m i : Nat) (hm : m < n) (hi : i < 16) := cbcDecrypt_getD k v c m i (by omega) hi
  have hplain' (m i : Nat) (hm : m < n) (hi : i < 16) := cbcDecrypt_getD k v c' m i (by omega) hi
  refine ⟨fun j hj => ?_, fun i hi => ?_, fun hnext i hi => ?_⟩
  · by_cases hjn : j < 16 * n
    · have hsplit : 16 * (j / 16) + j % 16 = j := Nat.div_add_mod j 16
      have hmod : j % 16 < 16 := Nat.mod_lt j (by decide)
      rw [← hsplit, hplain _ _ (by omega) hmod, hplain' _ _ (by omega) hmod,
        blockOfList_drop_congr fun i hi => hsame _ (by omega), hsame (16 * (j / 16 - 1) + j % 16) (by omega)]
    · rw [List.getD_eq_default _ _ (by rw [length_cbcDecrypt]; omega),
        List.getD_eq_default _ _ (by rw [length_cbcDecrypt]; omega)]
  · rw [hplain' b i hb hi]
    rcases b with _ | b
    · rfl
    · rw [hsame _ (by omega)]
  · rw [hplain _ i hnext hi, hplain' _ i hnext hi, blockOfList_drop_congr fun i hi => hsame _ (by omega),
      if_neg (by omega), if_neg (by omega), Nat.add_sub_cancel, BitVec.xor_assoc, xor_cancel_left]

end Sys2Proof.Machine
end

section
/-! Multiplication in GF(2^8) (rules R90, R91): it is linear in both factors, a doubling can be taken from one factor to
the other, and it is associative. -/

namespace Sys2Proof.Machine

/-! ### Linearity -/

theorem xor_xor_xor_comm (a b c d : Byte) : a ^^^ b ^^^ (c ^^^ d) = a ^^^ c ^^^ (b ^^^ d) := by ac_rfl

/-- A byte that is added under the sum of two conditions is added under each of them. -/
theorem ite_xor (p q : Bool) (a : Byte) :
    (if p ^^ q then a else 0#8) = (if p then a else 0#8) ^^^ if q then a else 0#8 := by
  cases p <;> cases q <;> simp

theorem xtime_eq (a : Byte) : xtime a = a <<< 1 ^^^ if a.getLsbD 7 then 0x1B#8 else 0x00#8 := by
  rw [xtime]; split <;> simp

/-- One turn of the loop of rule R91. -/
theorem gmulFrom_succ (b : Byte) (n i : Nat) (a r : Byte) :
    gmulFrom b (n + 1) i a r = gmulFrom b n (i + 1) (xtime a) (r ^^^ if b.getLsbD i then a else 0#8) := by
  rw [gmulFrom]; split <;> simp

theorem xor_ite (p : Bool) (a b : Byte) :
    (if p then a ^^^ b else 0#8) = (if p then a else 0#8) ^^^ if p then b else 0#8 := by
  cases p <;> simp

theorem xtime_xor (a b : Byte) : xtime (a ^^^ b) = xtime a ^^^ xtime b := by
  rw [xtime_eq, xtime_eq, xtime_eq, BitVec.shiftLeft_xor_distrib, BitVec.getLsbD_xor, ite_xor, xor_xor_xor_comm]

/-- The loop of rule R91 is linear in the factor that is doubled, together with the sum collected. -/
theorem gmulFrom_xor_left (b : Byte) (n i : Nat) (a a' r r' : Byte) :
    gmulFrom b n i (a ^^^ a') (r ^^^ r') = gmulFrom b n i a r ^^^ gmulFrom b n i a' r' := by
  induction n generalizing i a a' r r' with
  | zero => rfl
  | succ n ih => rw [gmulFrom_succ, gmulFrom_succ, gmulFrom_succ, xtime_xor, xor_ite, xor_xor_xor_comm, ih]

/-- The loop of rule R91 is linear in the factor whose bits are read, together with the sum collected. -/
theorem gmulFrom_xor_right (b b' : Byte) (n i : Nat) (a r r' : Byte) :
    gmulFrom (b ^^^ b') n i a (r ^^^ r') = gmulFrom b n i a r ^^^ gmulFrom b' n i a r' := by
  induction n generalizing i a r r' with
  | zero => rfl
  | succ n ih => rw [gmulFrom_succ, gmulFrom_succ, gmulFrom_succ, BitVec.getLsbD_xor, ite_xor, xor_xor_xor_comm, ih]

theorem gmul_xor_left (a a' b : Byte) : gmul (a ^^^ a') b = gmul a b ^^^ gmul a' b :=
  gmulFrom_xor_left b 8 0 a a' 0#8 0#8

theorem gmul_xor_right (a b b' : Byte) : gmul a (b ^^^ b') = gmul a b ^^^ gmul a b' :=
  gmulFrom_xor_right b b' 8 0 a 0#8 0#8

theorem gmul_zero_left (b : Byte) : gmul 0x00#8 b = 0x00#8 := by
  simpa using gmul_xor_left 0x00#8 0x00#8 b

theorem gmul_zero_right (a : Byte) : gmul a 0x00#8 = 0x00#8 := by
  simpa using gmul_xor_right a 0x00#8 0x00#8

theorem gmul_one_left : ∀ a : Byte, gmul 0x01#8 a = a := by decide +kernel

/-! ### Doubling -/

theorem xtime_gmulFrom (b : Byte) (n i : Nat) (a r : Byte) :
    xtime (gmulFrom b n i a r) = gmulFrom b n i (xtime a) (xtime r) := by
  induction n generalizing i a r with
  | zero => rfl
  | succ n ih => rw [gmulFrom, gmulFrom, ih, apply_ite xtime, xtime_xor]

theorem gmul_xtime_left (a b : Byte) : gmul (xtime a) b = xtime (gmul a b) :=
  (xtime_gmulFrom b 8 0 a 0#8).symm

/-- The last turn of the loop adds the factor doubled as often as there were turns before. -/
theorem gmulFrom_succ_last (b : Byte) (n i : Nat) (a r : Byte) :
    gmulFrom b (n + 1) i a r = gmulFrom b n i a r ^^^ if b.getLsbD (i + n) then xtime^[n] a else 0x00#8 := by
  induction n generalizing i a r with
  | zero => exact gmulFrom_succ b 0 i a r
  | succ n ih =>
    rw [gmulFrom, ih, Nat.add_right_comm, Nat.add_assoc]
    rfl

/-- Shifting the bits that are read by one is reading them one turn later. -/
theorem gmulFrom_shiftLeft (b : Byte) (n i : Nat) (a r : Byte) (h : i + n < 8) :
    gmulFrom (b <<< 1) n (i + 1) a r = gmulFrom b n i a r := by
  induction n generalizing i a r with
  | zero => rfl
  | succ n ih =>
    have hbit : (b <<< 1).getLsbD (i + 1) = b.getLsbD i := by
      rw [BitVec.getLsbD_shiftLeft, decide_eq_true (by omega : i + 1 < 8)]
      simp [-BitVec.getLsbD_eq_getElem]
    rw [gmulFrom, gmulFrom, hbit, ih _ _ _ (by omega)]

/-- Multiplying by the reduction constant 0x1B is doubling eight times (rule R91). -/
theorem gmul_reduction : ∀ a : Byte, gmul a 0x1B#8 = xtime^[7] (xtime a) := by decide +kernel

/-- A doubling can be taken from one factor to the other. -/
theorem gmul_xtime_right (a b : Byte) : gmul a (xtime b) = gmul (xtime a) b := by
  have hshift : gmul a (b <<< 1) = gmulFrom b 7 0 (xtime a) 0x00#8 := by
    rw [← gmulFrom_shiftLeft b 7 0 _ _ (by decide), gmul, gmulFrom, BitVec.getLsbD_shiftLeft]
    rfl
  have hlast : gmul (xtime a) b = gmul a (b <<< 1) ^^^ if b.getLsbD 7 then gmul a 0x1B#8 else 0x00#8 := by
    rw [gmul, gmulFrom_succ_last, hshift, gmul_reduction]
  rw [hlast, xtime]
  split
  · rw [gmul_xor_right]
  · rw [BitVec.xor_zero]

/-! ### Associativity -/

theorem gmul_gmulFrom (a c : Byte) (n i : Nat) (b r : Byte) :
    gmul a (gmulFrom c n i b r) = gmulFrom c n i (gmul a b) (gmul a r) := by
  induction n generalizing i b r with
  | zero => rfl
  | succ n ih => rw [gmulFrom, gmulFrom, ih, gmul_xtime_right, gmul_xtime_left, apply_ite (gmul a), gmul_xor_right]

theorem gmul_assoc (a b c : Byte) : gmul (gmul a b) c = gmul a (gmul b c) :=
  ((gmul_gmulFrom a c 8 0 b 0x00#8).trans (by rw [gmul_zero_right]; rfl)).symm

end Sys2Proof.Machine
end

section
/-! The inverse cipher undoes the forward cipher: each transformation is undone by its Inv counterpart, and the rounds
one after the other (rules R101 to R104, R110 to R113). -/

namespace Sys2Proof.Machine

/-! ### The transformations -/

theorem cell_addRoundKey (s rk : Block) (r c : Fin 4) : cell (addRoundKey s rk) r c = cell s r c ^^^ cell rk r c :=
  cell_stateOf _ r c

theorem addRoundKey_addRoundKey (s rk : Block) : addRoundKey (addRoundKey s rk) rk = s := by
  refine block_ext_cell _ _ fun r c => ?_
  rw [cell_addRoundKey, cell_addRoundKey, xor_cancel_right]

theorem invShiftRows_shiftRows (s : Block) : invShiftRows (shiftRows s) = s := by
  refine block_ext_cell _ _ fun r c => ?_
  rw [invShiftRows, cell_stateOf, shiftRows, cell_stateOf, sub_add_cancel]

theorem invSBox_sBox : ∀ a : Byte, invSBox (sBox a) = a := by decide +kernel

theorem invSubBytes_subBytes (s : Block) : invSubBytes (subBytes s) = s := by
  refine block_ext_cell _ _ fun r c => ?_
  rw [invSubBytes, cell_stateOf, subBytes, cell_stateOf, invSBox_sBox]

/-! ### The mixing of columns -/

/-- Every column of the array times the matrix m (rules R104, R111). -/
def mixBy (m : Fin 4 → Fin 4 → Byte) (s : Block) : Block :=
  stateOf fun r c => mixCell (m r 0) (m r 1) (m r 2) (m r 3) s c

/-- The constants of MixColumns (rule R111), by row and column. -/
def mixMatrix : Fin 4 → Fin 4 → Byte :=
  ![![0x02#8, 0x03#8, 0x01#8, 0x01#8], ![0x01#8, 0x02#8, 0x03#8, 0x01#8],
    ![0x01#8, 0x01#8, 0x02#8, 0x03#8], ![0x03#8, 0x01#8, 0x01#8, 0x02#8]]

/-- The constants of InvMixColumns (rule R104), by row and column. -/
def invMixMatrix : Fin 4 → Fin 4 → Byte :=
  ![![0x0E#8, 0x0B#8, 0x0D#8, 0x09#8], ![0x09#8, 0x0E#8, 0x0B#8, 0x0D#8],
    ![0x0D#8, 0x09#8, 0x0E#8, 0x0B#8], ![0x0B#8, 0x0D#8, 0x09#8, 0x0E#8]]

theorem mixColumns_eq_mixBy (s : Block) : mixColumns s = mixBy mixMatrix s := by
  refine block_ext_cell _ _ fun r c => ?_
  rw [mixColumns, mixBy, cell_stateOf, cell_stateOf]
  match r with
  | 0 | 1 | 2 | 3 => rfl

theorem invMixColumns_eq_mixBy (s : Block) : invMixColumns s = mixBy invMixMatrix s := by
  refine block_ext_cell _ _ fun r c => ?_
  rw [invMixColumns, mixBy, cell_stateOf, cell_stateOf]
  match r with
  | 0 | 1 | 2 | 3 => rfl

/-- The product of two matrices over GF(2^8). -/
def matrixMul (m m' : Fin 4 → Fin 4 → Byte) (i j : Fin 4) : Byte :=
  gmul (m i 0) (m' 0 j) ^^^ gmul (m i 1) (m' 1 j) ^^^ gmul (m i 2) (m' 2 j) ^^^ gmul (m i 3) (m' 3 j)

/-- The unit matrix over GF(2^8). -/
def matrixOne (i j : Fin 4) : Byte := if i = j then 0x01#8 else 0x00#8

/-- Mixing twice is mixing by the product, because multiplication in GF(2^8) is linear and associative (rule R91). -/
theorem mixBy_mixBy (m m' : Fin 4 → Fin 4 → Byte) (s : Block) : mixBy m (mixBy m' s) = mixBy (matrixMul m m') s := by
  refine block_ext_cell _ _ fun r c => ?_
  rw [mixBy, mixBy, mixBy, cell_stateOf, cell_stateOf]
  simp only [mixCell, cell_stateOf, matrixMul, gmul_xor_left, gmul_xor_right, gmul_assoc]
  ac_rfl

theorem mixBy_matrixOne (s : Block) : mixBy matrixOne s = s := by
  refine block_ext_cell _ _ fun r c => ?_
  rw [mixBy, cell_stateOf]
  match r with
  | 0 | 1 | 2 | 3 => simp [mixCell, matrixOne, gmul_one_left, gmul_zero_left]

/-- The two matrices of constants are inverse to each other (rules R104, R111). -/
theorem matrixMul_invMixMatrix_mixMatrix : matrixMul invMixMatrix mixMatrix = matrixOne := by
  have hentry : ∀ i j, matrixMul invMixMatrix mixMatrix i j = matrixOne i j := by decide +kernel
  exact funext₂ hentry

theorem invMixColumns_mixColumns (s : Block) : invMixColumns (mixColumns s) = s := by
  rw [invMixColumns_eq_mixBy, mixColumns_eq_mixBy, mixBy_mixBy, matrixMul_invMixMatrix_mixMatrix, mixBy_matrixOne]

/-! ### The rounds -/

/-- A round of the inverse cipher undoes the key and the mixing of one forward round and the substitution and shift of
the round before it (rule R110). -/
theorem invRound_shiftRows_subBytes_fwdRound (s rk : Block) :
    invRound (shiftRows (subBytes (fwdRound s rk))) rk = shiftRows (subBytes s) := by
  rw [invRound, invShiftRows_shiftRows, invSubBytes_subBytes, fwdRound, addRoundKey_addRoundKey,
    invMixColumns_mixColumns]

theorem invRounds_shiftRows_subBytes_fwdRounds (k : Block) (n : Nat) (s : Block) :
    invRounds k n (shiftRows (subBytes (fwdRounds k n s))) = shiftRows (subBytes s) := by
  induction n with
  | zero => rfl
  | succ n ih => rw [fwdRounds, invRounds, invRound_shiftRows_subBytes_fwdRound, ih]

/-- InvCipher undoes Cipher, for every key and block (rule R113). -/
theorem invCipher_cipher (k b : Block) : invCipher k (cipher k b) = b := by
  rw [invCipher, cipher, addRoundKey_addRoundKey, invRounds_shiftRows_subBytes_fwdRounds, invShiftRows_shiftRows,
    invSubBytes_subBytes, addRoundKey_addRoundKey]

end Sys2Proof.Machine
end

section
/-! CBC decryption undoes CBC encryption (rule R88). -/

namespace Sys2Proof.Machine

theorem blocksOf_bytesOf (bs : List Block) : blocksOf (bytesOf bs) = bs := by
  induction bs with
  | nil => rfl
  | cons b bs ih =>
    calc blocksOf (bytesOf (b :: bs))
        = blocksOf (b.toList ++ bytesOf bs) := rfl
      _ = b :: bs := by rw [blocksOf_append _ _ (by simp), blocksOf_toList, ih, List.singleton_append]

theorem toList_blockOfList {l : List Byte} (h : l.length = 16) : (blockOfList l).toList = l :=
  congrArg Vector.toList (blockOfList_toList ⟨l.toArray, h⟩)

theorem bytesOf_takeBlocks (n : Nat) (l : List Byte) (h : l.length = 16 * n) : bytesOf (takeBlocks n l) = l := by
  induction n generalizing l with
  | zero => rw [List.length_eq_zero_iff.mp h]; rfl
  | succ n ih =>
    have hfirst : (l.take 16).length = 16 := by rw [List.length_take]; omega
    calc bytesOf (takeBlocks (n + 1) l)
        = (blockOfList (l.take 16)).toList ++ bytesOf (takeBlocks n (l.drop 16)) := rfl
      _ = l := by rw [toList_blockOfList hfirst, ih _ (by rw [List.length_drop]; omega), List.take_append_drop]

theorem bytesOf_blocksOf (l : List Byte) (h : l.length % 16 = 0) : bytesOf (blocksOf l) = l :=
  bytesOf_takeBlocks _ l (by omega)

/-- Adding a block twice takes it away (rule R6). -/
theorem xorBlock_xorBlock (a b : Block) : xorBlock (xorBlock a b) b = a := by
  refine block_ext _ _ fun i hi => ?_
  rw [byteAt_xorBlock _ _ i hi, byteAt_xorBlock _ _ i hi, xor_cancel_right]

/-- Decryption meets the chaining values of the encryption: each is the ciphertext block before (rules R82, R87). -/
theorem cbcDecryptBlocks_cbcEncryptBlocks (k v : Block) (ps : List Block) :
    cbcDecryptBlocks k v (cbcEncryptBlocks k v ps) = ps := by
  induction ps generalizing v with
  | nil => rfl
  | cons p ps ih => rw [cbcEncryptBlocks, cbcDecryptBlocks, cbcDecryptBlock, invCipher_cipher, xorBlock_xorBlock, ih]

/-- Settles O45, block by block with the round trip of the cipher. -/
theorem cbcRoundTrip : Obligations.CbcRoundTrip := by
  intro k v p hp
  rw [cbcDecrypt, cbcEncrypt, blocksOf_bytesOf, cbcDecryptBlocks_cbcEncryptBlocks, bytesOf_blocksOf p hp]

end Sys2Proof.Machine
end

section
/-! The laws of the field multiplication and its products by the cipher's constants (rules R90, R91). -/

namespace Sys2Proof.Machine

/-- Multiplication from the right goes into the loop of rule R91, as it is linear and takes doublings along. -/
theorem gmulFrom_gmul (b c : Byte) (n i : Nat) (a r : Byte) :
    gmul (gmulFrom b n i a r) c = gmulFrom b n i (gmul a c) (gmul r c) := by
  induction n generalizing i a r with
  | zero => rfl
  | succ n ih => rw [gmulFrom, gmulFrom, ih, gmul_xtime_left, apply_ite (gmul · c), gmul_xor_left]

theorem gmul_comm (a b : Byte) : gmul a b = gmul b a :=
  calc gmul a b
      = gmulFrom b 8 0 (gmul 0x01#8 a) (gmul 0x00#8 a) := by rw [gmul_one_left, gmul_zero_left, gmul]
    _ = gmul (gmul 0x01#8 b) a := (gmulFrom_gmul b a 8 0 0x01#8 0x00#8).symm
    _ = gmul b a := by rw [gmul_one_left]

theorem gmul_one_right (a : Byte) : gmul a 0x01#8 = a := by rw [gmul_comm, gmul_one_left]

theorem gmul_xtime (a b : Byte) : gmul a (xtime b) = xtime (gmul a b) := by rw [gmul_xtime_right, gmul_xtime_left]

/-- The factors of rule R91 as sums of doublings of the one. -/
theorem constants_eq_xtime :
    0x02#8 = xtime 0x01#8 ∧ 0x03#8 = xtime 0x01#8 ^^^ 0x01#8 ∧
    0x09#8 = xtime (xtime (xtime 0x01#8)) ^^^ 0x01#8 ∧
    0x0B#8 = xtime (xtime (xtime 0x01#8)) ^^^ xtime 0x01#8 ^^^ 0x01#8 ∧
    0x0D#8 = xtime (xtime (xtime 0x01#8)) ^^^ xtime (xtime 0x01#8) ^^^ 0x01#8 ∧
    0x0E#8 = xtime (xtime (xtime 0x01#8)) ^^^ xtime (xtime 0x01#8) ^^^ xtime 0x01#8 := by
  decide

/-- Settles O48: each constant is a sum of doublings of the one, and multiplication goes through sums and doublings. -/
theorem fieldMultiplicationLaws : Obligations.FieldMultiplicationLaws := by
  refine ⟨gmul_comm, gmul_assoc, gmul_xor_right, gmul_one_right, fun a => ?_, by decide⟩
  obtain ⟨h02, h03, h09, h0B, h0D, h0E⟩ := constants_eq_xtime
  rw [h02, h03, h09, h0B, h0D, h0E]
  simp only [gmul_xor_right, gmul_xtime, gmul_one_right, and_self]

end Sys2Proof.Machine
end

section
/-! The S-box tables and the field (rules R92, R93). -/

namespace Sys2Proof.Machine

theorem sBox_invSBox : ∀ a : Byte, sBox (invSBox a) = a := by decide +kernel

/-- The byte whose image under the affine map of rule R92 is a. -/
def invAffine (a : Byte) : Byte := a.rotateLeft 1 ^^^ a.rotateLeft 3 ^^^ a.rotateLeft 6 ^^^ 0x05#8

theorem affine_invAffine : ∀ a : Byte, affine (invAffine a) = a := by decide +kernel

theorem gmul_invAffine_sBox : ∀ a : Byte, a ≠ 0x00#8 → gmul a (invAffine (sBox a)) = 0x01#8 := by decide +kernel

/-- The affine map taken off an S-box entry leaves the field inverse (rule R92). -/
theorem isFieldInverse_invAffine_sBox (a : Byte) : isFieldInverse a (invAffine (sBox a)) := by
  by_cases ha : a = 0x00#8
  · exact .inl ⟨ha, ha ▸ (by decide : invAffine (sBox 0x00#8) = 0x00#8)⟩
  · exact .inr (gmul_invAffine_sBox a ha)

/-- A rotation of a byte to the left by m reads each bit 8 - m places on. -/
theorem getLsbD_rotateLeft_byte (b : Byte) {m n i : Nat} (hn : 0 < n) (hmn : m + n = 8) (hi : i < 8) :
    (b.rotateLeft m).getLsbD i = b.getLsbD ((i + n) % 8) := by
  rw [BitVec.getLsbD_rotateLeft, Nat.mod_eq_of_lt (by omega : m < 8)]
  by_cases hwrap : i < m
  · rw [decide_eq_true hwrap, cond_true, Nat.mod_eq_of_lt (by omega)]
    congr 1
    omega
  · rw [decide_eq_false hwrap, cond_false, decide_eq_true hi, Bool.true_and]
    congr 1
    omega

/-- The affine map bit by bit (rule R92). -/
theorem getLsbD_affine (b : Byte) (i : Nat) (hi : i < 8) :
    (affine b).getLsbD i =
      (b.getLsbD i ^^ b.getLsbD ((i + 4) % 8) ^^ b.getLsbD ((i + 5) % 8) ^^ b.getLsbD ((i + 6) % 8) ^^
        b.getLsbD ((i + 7) % 8) ^^ (0x63#8).getLsbD i) := by
  have hsum : affine b =
      b ^^^ b.rotateLeft 4 ^^^ b.rotateLeft 3 ^^^ b.rotateLeft 2 ^^^ b.rotateLeft 1 ^^^ 0x63#8 := by
    rw [affine]
    ac_rfl
  have hrot {m : Nat} (n : Nat) (hn : 0 < n) (hmn : m + n = 8) := getLsbD_rotateLeft_byte b hn hmn hi
  rw [hsum]
  simp only [BitVec.getLsbD_xor]
  rw [hrot 4 (by decide) rfl, hrot 5 (by decide) rfl, hrot 6 (by decide) rfl, hrot 7 (by decide) rfl]

/-- Settles O47: the field inverse of a byte is what the affine map taken off its S-box entry leaves. -/
theorem sBoxTablesAreRight : Obligations.SBoxTablesAreRight :=
  ⟨fun a => ⟨invAffine (sBox a), isFieldInverse_invAffine_sBox a, (affine_invAffine (sBox a)).symm⟩, getLsbD_affine,
    invSBox_sBox, sBox_invSBox, by decide⟩

end Sys2Proof.Machine
end

section
/-! The forward cipher undoes the inverse cipher, and the transformations undo each other both ways (rules R101 to R104,
R110 to R113). -/

namespace Sys2Proof.Machine

theorem shiftRows_invShiftRows (s : Block) : shiftRows (invShiftRows s) = s := by
  refine block_ext_cell _ _ fun r c => ?_
  rw [shiftRows, cell_stateOf, invShiftRows, cell_stateOf, add_sub_cancel_right]

theorem subBytes_invSubBytes (s : Block) : subBytes (invSubBytes s) = s := by
  refine block_ext_cell _ _ fun r c => ?_
  rw [subBytes, cell_stateOf, invSubBytes, cell_stateOf, sBox_invSBox]

theorem matrixMul_mixMatrix_invMixMatrix : matrixMul mixMatrix invMixMatrix = matrixOne := by
  have hentry : ∀ i j, matrixMul mixMatrix invMixMatrix i j = matrixOne i j := by decide +kernel
  exact funext₂ hentry

theorem mixColumns_invMixColumns (s : Block) : mixColumns (invMixColumns s) = s := by
  rw [mixColumns_eq_mixBy, invMixColumns_eq_mixBy, mixBy_mixBy, matrixMul_mixMatrix_invMixMatrix, mixBy_matrixOne]

/-- Settles O49: the cells of each pair, and for the mixing of columns the product of the two matrices. -/
theorem transformationsAreInverse : Obligations.TransformationsAreInverse := fun s rk =>
  ⟨addRoundKey_addRoundKey s rk, invShiftRows_shiftRows s, shiftRows_invShiftRows s, invSubBytes_subBytes s,
    subBytes_invSubBytes s, invMixColumns_mixColumns s, mixColumns_invMixColumns s⟩

/-- A forward round undoes the substitution and shift of one inverse round and the key and mixing of the inverse round
before it (rule R112). -/
theorem fwdRound_invSubBytes_invShiftRows_invRound (s rk : Block) :
    fwdRound (invSubBytes (invShiftRows (invRound s rk))) rk = invSubBytes (invShiftRows s) := by
  rw [fwdRound, subBytes_invSubBytes, shiftRows_invShiftRows, invRound, mixColumns_invMixColumns,
    addRoundKey_addRoundKey]

theorem fwdRounds_invSubBytes_invShiftRows_invRounds (k : Block) (n : Nat) (s : Block) :
    fwdRounds k n (invSubBytes (invShiftRows (invRounds k n s))) = invSubBytes (invShiftRows s) := by
  induction n generalizing s with
  | zero => rfl
  | succ n ih => rw [fwdRounds, invRounds, ih, fwdRound_invSubBytes_invShiftRows_invRound]

/-- Cipher undoes InvCipher, for every key and block (rule R113). -/
theorem cipher_invCipher (k b : Block) : cipher k (invCipher k b) = b := by
  rw [cipher, invCipher, addRoundKey_addRoundKey, fwdRounds_invSubBytes_invShiftRows_invRounds, subBytes_invSubBytes,
    shiftRows_invShiftRows, addRoundKey_addRoundKey]

/-- Settles O53: the two ciphers are inverse to each other on both sides, so each is a bijection. -/
theorem invCipherInvertsCipher : Obligations.InvCipherInvertsCipher := fun k =>
  ⟨invCipher_cipher k, cipher_invCipher k,
    Function.bijective_iff_has_inverse.mpr ⟨invCipher k, invCipher_cipher k, cipher_invCipher k⟩,
    Function.bijective_iff_has_inverse.mpr ⟨cipher k, cipher_invCipher k, invCipher_cipher k⟩⟩

/-- Settles O52: the forward direction is computed, and where the other is asked too, InvCipher undoes it. -/
theorem publishedCipherExamples : Obligations.PublishedCipherExamples := by
  unfold Obligations.PublishedCipherExamples
  refine ⟨?_, by decide +kernel, by decide +kernel⟩
  intro k p c
  have hforward : cipher k p = c := by decide +kernel
  exact ⟨hforward ▸ invCipher_cipher k p, hforward⟩

end Sys2Proof.Machine
end

section
/-! The key schedule word by word (rules R105, R106). -/

namespace Sys2Proof.Machine

/-- The word m + 1 places before word n, where the schedule's list holds the newest word first. -/
theorem getD_keyWords (k : Block) (d : KeyWord) (n m : Nat) (h : m < n) :
    (keyWords k n).getD m d = keyWord k (n - (m + 1)) := by
  induction n generalizing m with
  | zero => omega
  | succ n ih =>
    cases m with
    | zero => rfl
    | succ m => rw [keyWords, List.getD_cons_succ, ih m (by omega), Nat.add_sub_add_right]

theorem keyWord_of_lt (k : Block) (i : Nat) (h : i < 4) : keyWord k i = keyPart k i := if_pos h

/-- The words after the key's own come from the word four places and the word one place before. -/
theorem keyWord_of_ge (k : Block) (i : Nat) (h : 4 ≤ i) :
    keyWord k i =
      if i % 4 = 0 then
        xorKeyWord (xorKeyWord (keyWord k (i - 4)) (subWord (rotWord (keyWord k (i - 1))))) (rcon (i / 4))
      else xorKeyWord (keyWord k (i - 4)) (keyWord k (i - 1)) := by
  rw [keyWord, nextKeyWord, if_neg (by omega), getD_keyWords k _ i 3 (by omega), getD_keyWords k _ i 0 (by omega)]

theorem cell_roundKey (k : Block) (j : Nat) (r c : Fin 4) :
    cell (roundKey k j) r c = (keyWord k (4 * j + c.val))[r.val]'r.isLt :=
  cell_stateOf _ r c

theorem getElem_keyPart (k : Block) (c r : Fin 4) : (keyPart k c)[r.val]'r.isLt = cell k r c := by
  rw [cell, Nat.add_comm]
  match r with
  | 0 | 1 | 2 | 3 => rfl

/-- RK[0] is the key (rule R105). -/
theorem roundKey_zero (k : Block) : roundKey k 0 = k := by
  refine block_ext_cell _ _ fun r c => ?_
  rw [cell_roundKey, Nat.mul_zero, Nat.zero_add, ← getElem_keyPart]
  simp only [keyWord_of_lt k c.val c.isLt]

/-- Settles O50, the recurrence from the place of the older words in the list of all words before. -/
theorem keyScheduleRecurrence : Obligations.KeyScheduleRecurrence := by
  refine ⟨fun _ _ _ _ => ⟨rfl, rfl⟩, by decide, fun k => ⟨roundKey_zero k, ?_, ?_, ?_, ?_⟩⟩
  · exact fun j r c _ hr hc => cell_roundKey k j ⟨r, hr⟩ ⟨c, hc⟩
  · exact fun i hi => keyWord_of_lt k i hi
  · exact fun i hi _ hround => (keyWord_of_ge k i hi).trans (if_pos hround)
  · exact fun i hi _ hround => (keyWord_of_ge k i hi).trans (if_neg hround)

/-- Settles O51: KeyExpansion of the configured KEY is computed. -/
theorem roundKeysOfThisKey : Obligations.RoundKeysOfThisKey := by
  unfold Obligations.RoundKeysOfThisKey
  decide +kernel

end Sys2Proof.Machine
end

section
/-! The driver (rule R126) as it stands between two of its transactions while no reset falls: what is pushed is C, what
is collected is D, and the engine is where the transaction to come is answered (rules R35, R142). -/

namespace Sys2Proof.Machine

/-! ### The driver's transactions -/

theorem perform_clear (s : State) : s.perform (.host (encode .clear)) = State.reset := perform_encode .clear s _ rfl rfl

theorem perform_setlen_of_idle (n : Word) (s : State) (hp : s.phase = .idle) :
    s.perform (.host (encode (.setlen n))) = (State.storeLen { s with agenda := [] } n).noAnswer :=
  perform_encode (.setlen n) s _ rfl (exec_setlen_of_idle n { s with agenda := [] } hp)

theorem perform_start_of_badLength (s : State) (hp : s.phase = .idle) (hb : badLength s.len = true) :
    s.perform (.host (encode .start)) = (State.raiseInvalidLength { s with agenda := [] }).noAnswer :=
  perform_encode .start s _ rfl (exec_start_of_badLength { s with agenda := [] } hp hb)

theorem setWidth_zextByte (b : Byte) : (zextByte b).setWidth 8 = b := by
  rw [zextByte, BitVec.setWidth_setWidth_of_le _ (by decide), BitVec.setWidth_eq]

theorem driverAnswer_of_badLength {c : List Byte} {n : Word} (hn : n.toNat = c.length) (hb : badLength n = true) :
    driverAnswer c = .err .invalidLength :=
  if_pos (hn ▸ (badLength_iff n).mp hb)

theorem driverAnswer_of_goodLength {c : List Byte} {n : Word} (hn : n.toNat = c.length) (hb : badLength n = false) :
    driverAnswer c = .ok (cbcDecrypt engineConfig.key engineConfig.iv c) := by
  obtain ⟨hpos, hwhole⟩ := (badLength_false_iff n).mp hb
  exact if_neg (by omega)

/-! ### The ciphertext between driver and engine -/

/-- The engine has a message of the length of c: what it accepted is c but for `todo`, and what it delivered is
`plain`. -/
structure InStreams (c todo plain : List Byte) (s : State) : Prop where
  len : s.len.toNat = c.length
  law : ∃ sent, sent ++ todo = c ∧ StreamInv s ⟨sent, plain⟩

namespace InStreams
variable {c todo plain : List Byte} {s : State}

theorem inv (h : InStreams c todo plain s) : s.Inv := by
  obtain ⟨_, -, hs⟩ := h.law
  exact hs.inv

theorem withPort (h : InStreams c todo plain s) (p : Bool) (r : Option Word) (a : List Event) :
    InStreams c todo plain { s with perr := p, rdata := r, agenda := a } where
  len := h.len
  law := h.law.imp fun _ hs => ⟨hs.1, hs.2.withPort p r a⟩

theorem engineTurn (h : InStreams c todo plain s) : InStreams c todo plain (s.engineTurn engineConfig) where
  len := (congrArg BitVec.toNat (engineTurn_len engineConfig s)).trans h.len
  law := h.law.imp fun _ hs => ⟨hs.1, hs.2.engineTurn⟩

theorem acceptByte {b : Byte} (h : InStreams c (b :: todo) plain s) (hi : s.irdy = true) :
    InStreams c todo plain (s.acceptByte b) := by
  obtain ⟨sent, rfl, hs⟩ := h.law
  exact ⟨h.len, sent ++ [b], List.append_assoc sent [b] todo, hs.acceptByte b hi⟩

theorem deliverByte (h : InStreams c todo plain s) (ho : s.ordy = true) :
    InStreams c todo (plain ++ [s.nextOut]) s.deliverByte := by
  obtain ⟨sent, rfl, hs⟩ := h.law
  exact ⟨h.len, sent, rfl, hs.deliverByte ho⟩

/-- The counters of the engine in RUN, against what is still to be pushed. -/
theorem counts (h : InStreams c todo plain s) (hp : s.phase = .run) :
    c.length % 16 = 0 ∧ s.ocnt.toNat < c.length ∧ (s.ocnt.toNat + s.orem.val) % 16 = 0 ∧
      s.icnt.toNat + todo.length = c.length ∧ s.ifill.val + (s.ocnt.toNat + s.orem.val) = s.icnt.toNat := by
  obtain ⟨sent, rfl, hs⟩ := h.law
  obtain ⟨-, hlen, hwhole, hfill, -, hunf⟩ := (inv_iff_of_run s hp).mp hs.inv
  have hsent := hs.sentCount
  rw [h.len] at hlen hunf
  rw [List.length_append] at *
  exact ⟨hlen, hunf, hwhole, by rw [hsent], hfill⟩

/-- In DONE all of c is pushed, and its plaintext collected. -/
theorem of_done (h : InStreams c todo plain s) (hp : s.phase = .done) :
    todo = [] ∧ driverAnswer c = .ok plain := by
  obtain ⟨sent, rfl, hs⟩ := h.law
  obtain ⟨hsent, hgot⟩ := hs.of_done hp
  obtain ⟨-, hgood, -⟩ := (inv_iff_of_done s hp).mp hs.inv
  have hlen := h.len
  have hnil : todo = [] := by
    rw [List.length_append, ← hsent] at hlen
    exact List.length_eq_zero_iff.mp (by simpa using hlen)
  subst hnil
  refine ⟨rfl, ?_⟩
  rw [driverAnswer_of_goodLength h.len hgood, List.append_nil]
  exact congrArg _ hgot.symm

/-- With bytes to push and room in IBUF the next byte is accepted. -/
theorem irdy (h : InStreams c todo plain s) (hp : s.phase = .run) (hroom : s.ifill.val < 16) (hne : todo ≠ []) :
    s.irdy = true := by
  obtain ⟨-, -, -, hrest, -⟩ := h.counts hp
  have := List.length_pos_iff.mpr hne
  exact (irdy_iff s).mpr ⟨hp, hroom, by rw [h.len]; omega⟩

end InStreams

/-! ### Where the driver and the engine are -/

/-- The driver has pushed and collected nothing yet, and LEN can hold the length. -/
structure DriverState.Fresh (c : List Byte) (d : DriverState) : Prop where
  size : d.size = c.length
  short : c.length < 2 ^ 32
  todo : d.todo = c
  plain : d.plain = []

/-- What the driver and the engine hold when the transaction of rule R126 that `pc` names comes next. -/
def Situation (c : List Byte) (d : DriverState) (s : State) : DriverPc → Prop
  | .firstClear => d.Fresh c
  | .setlen => d.Fresh c ∧ s.Inv ∧ s.phase = .idle
  | .start => d.Fresh c ∧ s.Inv ∧ s.phase = .idle ∧ s.len.toNat = c.length
  | .firstStat =>
    (s.phase = .err ∧ driverAnswer c = .err .invalidLength) ∨
      (InStreams c d.todo d.plain s ∧ s.phase = .run ∧ s.ifill.val = 0 ∧ s.orem.val = 0)
  | .errClear => driverAnswer c = .err .invalidLength
  | .push =>
    InStreams c d.todo d.plain s ∧ s.phase = .run ∧ s.ifill.val = d.count ∧ d.count < 16 ∧ s.orem.val = 0 ∧ d.todo ≠ []
  | .waito =>
    InStreams c d.todo d.plain s ∧ s.phase = .run ∧
      ((s.ifill.val = 16 ∧ s.orem.val = 0) ∨ (s.ifill.val = 0 ∧ s.orem.val = 16))
  | .pop =>
    InStreams c d.todo d.plain s ∧ s.phase = .run ∧ s.ifill.val = 0 ∧ s.orem.val + d.count = 16 ∧ d.count < 16
  | .lastStat => InStreams c d.todo d.plain s ∧ s.phase = .done
  | .lastClear => d.status = 0x00000002#32 ∧ driverAnswer c = .ok d.plain
  | .returned r => r = driverAnswer c

/-- The driver is where rule R126 wants it, and since its first CLEAR the protocol is kept (rule R142). -/
structure OnTrack (c : List Byte) (d : DriverState) (s : State) : Prop where
  quiet : d.pc ≠ .firstClear → s.perr = false
  situation : Situation c d s d.pc

theorem onTrack_init {c : List Byte} (hc : c.length < 2 ^ 32) (s : State) : OnTrack c (.init c) s := by
  have hpc : (DriverState.init c).pc = .firstClear := if_pos hc
  refine ⟨fun hne => absurd hpc hne, ?_⟩
  rw [hpc]
  exact ⟨rfl, hc, rfl, rfl⟩

/-- At the head of the loop: the engine is in RUN with at least a block to push, or in DONE with none. -/
theorem OnTrack.nextBlock {c : List Byte} {d : DriverState} {s : State} (hquiet : s.perr = false)
    (h : InStreams c d.todo d.plain s) (hp : s.phase = .run ∨ s.phase = .done) (hifill : s.ifill.val = 0)
    (horem : s.orem.val = 0) : OnTrack c d.nextBlock s := by
  rcases hp with hp | hp
  · obtain ⟨hc, hunf, hwhole, hrest, hfill⟩ := h.counts hp
    have hblock : 16 ≤ d.todo.length := by omega
    have hne : d.todo ≠ [] := List.ne_nil_of_length_pos (Nat.lt_of_lt_of_le (by decide) hblock)
    rw [DriverState.nextBlock, if_pos hblock]
    exact ⟨fun _ => hquiet, h, hp, hifill, Nat.zero_lt_succ 15, horem, hne⟩
  · obtain ⟨hnil, -⟩ := h.of_done hp
    rw [DriverState.nextBlock, if_neg (by simp [hnil])]
    exact ⟨fun _ => hquiet, h, hp⟩

/-- STATUS at the end of a message without violation (rules R18, R126). -/
theorem statusWord_of_done {s : State} (h : s.Inv) (hp : s.phase = .done) (hperr : s.perr = false) :
    s.statusWord = 0x00000002#32 := by
  obtain ⟨hi, ho, hb⟩ := h.quiet (by simp [hp])
  obtain ⟨herr, -⟩ := (inv_iff_of_done s hp).mp h
  rw [statusWord_of_quiet s hi ho hb, hp, herr, hperr]
  rfl

/-! ### The turns -/

/-- The driver after its transaction, which has taken the engine to t: it sees what t has on the port. -/
def DriverState.sees (d : DriverState) (t : State) : DriverState := d.after (t.rdata.getD 0#32)

theorem DriverState.sees_stat (d : DriverState) (s : State) :
    d.sees (s.perform (.host (encode .stat))) = d.after s.statusWord := by
  rw [perform_stat]; rfl

section
variable {c : List Byte} {d : DriverState} {s : State}

/-- A poll of WAITO is the last one when it sees ORDY = 1. -/
theorem DriverState.sees_stat_of_waito (hpc : d.pc = .waito) (s : State) :
    d.sees (s.perform (.host (encode .stat))) =
      if s.ordy then { d with pc := .pop, count := 0, status := s.statusWord }
      else { d with status := s.statusWord } := by
  rw [DriverState.sees_stat, DriverState.after, hpc]
  simp only [statusWord_ordy]

/-- The first CLEAR makes an end of whatever state the engine was in. -/
theorem onTrack_of_firstClear (hpc : d.pc = .firstClear) (h : Situation c d s .firstClear) :
    OnTrack c (d.sees (s.perform (.host (encode .clear)))) (s.perform (.host (encode .clear))) := by
  rw [perform_clear, DriverState.sees, DriverState.after, hpc]
  exact ⟨fun _ => rfl, ⟨h.size, h.short, h.todo, h.plain⟩, inv_reset, rfl⟩

theorem onTrack_of_setlen (hpc : d.pc = .setlen) (hquiet : s.perr = false) (h : Situation c d s .setlen) :
    OnTrack c (d.sees (s.perform (.host (encode (.setlen (BitVec.ofNat 32 d.size))))))
      (s.perform (.host (encode (.setlen (BitVec.ofNat 32 d.size))))) := by
  obtain ⟨⟨hsize, hshort, htodo, hplain⟩, hinv, hp⟩ := h
  have hlen : (BitVec.ofNat 32 d.size).toNat = c.length := by
    rw [BitVec.toNat_ofNat, hsize, Nat.mod_eq_of_lt hshort]
  rw [perform_setlen_of_idle _ s hp, DriverState.sees, DriverState.after, hpc]
  exact ⟨fun _ => hquiet, ⟨hsize, hshort, htodo, hplain⟩, ((hinv.withAgenda []).storeLen _ hp).noAnswer, hp, hlen⟩

/-- START is refused for the lengths that the contract refuses, and else opens the message (rule R61). -/
theorem onTrack_of_start (hpc : d.pc = .start) (hquiet : s.perr = false) (h : Situation c d s .start) :
    OnTrack c (d.sees (s.perform (.host (encode .start)))) (s.perform (.host (encode .start))) := by
  obtain ⟨⟨-, -, htodo, hplain⟩, hinv, hp, hlen⟩ := h
  rw [DriverState.sees, DriverState.after, hpc]
  cases hb : badLength s.len with
  | true =>
    rw [perform_start_of_badLength s hp hb]
    exact ⟨fun _ => hquiet, .inl ⟨rfl, driverAnswer_of_badLength hlen hb⟩⟩
  | false =>
    have hopen :
        StreamInv (State.noAnswer (State.beginMessage engineConfig { s with agenda := [] })) ⟨[], d.plain⟩ := by
      rw [hplain]
      exact ((hinv.withAgenda []).streamInv_beginMessage hp hb).noAnswer
    rw [perform_start_of_goodLength s hp hb]
    exact ⟨fun _ => hquiet, .inr ⟨⟨hlen, [], htodo, hopen⟩, rfl, rfl, rfl⟩⟩

/-- The first STAT sees ERR, or the message opened. -/
theorem onTrack_of_firstStat (hpc : d.pc = .firstStat) (hquiet : s.perr = false) (h : Situation c d s .firstStat) :
    OnTrack c (d.sees (s.perform (.host (encode .stat)))) (s.perform (.host (encode .stat))) := by
  rw [DriverState.sees_stat, perform_stat, DriverState.after, hpc]
  have hphase := statusWord_phase s
  dsimp only
  rcases h with ⟨hp, herr⟩ | ⟨hs, hp, hifill, horem⟩
  · rw [if_pos (by rw [hphase, hp]; rfl)]
    exact ⟨fun _ => hquiet, herr⟩
  · rw [if_neg (by rw [hphase, hp]; decide)]
    exact OnTrack.nextBlock hquiet (hs.withPort s.perr _ []) (.inl hp) hifill horem

/-- A PUSH is accepted; the sixteenth completes a block. -/
theorem onTrack_of_push (hpc : d.pc = .push) (hquiet : s.perr = false) (h : Situation c d s .push) :
    OnTrack c (d.sees (s.perform (.host (encode (.push (d.todo.headD 0#8))))))
      (s.perform (.host (encode (.push (d.todo.headD 0#8))))) := by
  obtain ⟨hs, hp, hifill, hcount, horem, hne⟩ := h
  have hroom : s.ifill.val < 16 := hifill.trans_lt hcount
  have hi := hs.irdy hp hroom hne
  have hfill : (s.acceptByte (d.todo.headD 0#8)).ifill.val = d.count + 1 := by
    rw [acceptByte_ifill_val s _ hroom, hifill]
  obtain ⟨b, todo, htodo⟩ := List.exists_cons_of_ne_nil hne
  have hnext : InStreams c d.todo.tail d.plain (s.acceptByte (d.todo.headD 0#8)) := by
    rw [htodo] at hs ⊢
    exact hs.acceptByte hi
  have hport := hnext.withPort s.perr none []
  rw [perform_push_of_irdy _ s hi, DriverState.sees, DriverState.after, hpc]
  dsimp only
  split_ifs with hfull
  · exact ⟨fun _ => hquiet, hport, hp, .inl ⟨hfill.trans hfull, horem⟩⟩
  · obtain ⟨hc, hunf, hwhole, hrest, hcounts⟩ := hnext.counts hp
    rw [hfill] at hcounts
    have hmore : d.todo.tail ≠ [] := List.ne_nil_of_length_pos (by omega)
    have hcount' : d.count + 1 < 16 := by omega
    exact ⟨fun _ => hquiet, hport, hp, hfill, hcount', horem, hmore⟩

/-- WAITO goes on until it sees ORDY = 1. -/
theorem onTrack_of_waito (hpc : d.pc = .waito) (hquiet : s.perr = false) (h : Situation c d s .waito) :
    OnTrack c (d.sees (s.perform (.host (encode .stat)))) (s.perform (.host (encode .stat))) := by
  obtain ⟨hs, hp, hblock⟩ := h
  have hport := hs.withPort s.perr (some s.statusWord) []
  rw [DriverState.sees_stat_of_waito hpc, perform_stat]
  split_ifs with ho
  · rw [ordy_iff] at ho
    obtain ⟨hifill, horem⟩ : s.ifill.val = 0 ∧ s.orem.val = 16 := by omega
    exact ⟨fun _ => hquiet, hport, hp, hifill, horem, Nat.zero_lt_succ 15⟩
  · refine ⟨fun _ => hquiet, ?_⟩
    dsimp only
    rw [hpc]
    exact ⟨hport, hp, hblock⟩

/-- A POP delivers; the sixteenth leads back to the head of the loop. -/
theorem onTrack_of_pop (hpc : d.pc = .pop) (hquiet : s.perr = false) (h : Situation c d s .pop) :
    OnTrack c (d.sees (s.perform (.host (encode .pop)))) (s.perform (.host (encode .pop))) := by
  obtain ⟨hs, hp, hifill, horem, hcount⟩ := h
  have hpos : 0 < s.orem.val := by omega
  have ho := (ordy_iff s).mpr hpos
  have hleft := deliverByte_orem_val s hpos
  have hport := (hs.deliverByte ho).withPort s.perr (some (zextByte s.nextOut)) []
  rw [perform_pop_of_ordy s ho, DriverState.sees, State.answer_rdata, Option.getD_some, DriverState.after, hpc,
    setWidth_zextByte]
  dsimp only
  split_ifs with hlast
  · have hphase : s.deliverByte.phase = .run ∨ s.deliverByte.phase = .done :=
      (phaseAfterPop_cases s).elim (fun h => .inr h.2) (fun h => .inl (h.2.trans hp))
    exact OnTrack.nextBlock hquiet hport hphase hifill (hleft.trans (by omega))
  · obtain ⟨hc, hunf, hwhole, hrest, hfill⟩ := hs.counts hp
    have hmore : s.ocnt + 1#32 ≠ s.len := fun he => by
      have hocnt := toNat_add_one_of_lt (m := s.ocnt) (n := s.len) (by rw [hs.len]; exact hunf)
      rw [he, hs.len] at hocnt
      omega
    have hleft' : s.deliverByte.orem.val + (d.count + 1) = 16 := by omega
    have hcount' : d.count + 1 < 16 := by omega
    exact ⟨fun _ => hquiet, hport, (if_neg hmore).trans hp, hifill, hleft', hcount'⟩

/-- The last STAT sees DONE and no violation. -/
theorem onTrack_of_lastStat (hpc : d.pc = .lastStat) (hquiet : s.perr = false) (h : Situation c d s .lastStat) :
    OnTrack c (d.sees (s.perform (.host (encode .stat)))) (s.perform (.host (encode .stat))) := by
  obtain ⟨hs, hp⟩ := h
  obtain ⟨-, hplain⟩ := hs.of_done hp
  rw [DriverState.sees_stat, perform_stat, DriverState.after, hpc]
  exact ⟨fun _ => hquiet, statusWord_of_done hs.inv hp hquiet, hplain⟩

theorem onTrack_of_lastClear (hpc : d.pc = .lastClear) (h : Situation c d s .lastClear) :
    OnTrack c (d.sees (s.perform (.host (encode .clear)))) (s.perform (.host (encode .clear))) := by
  obtain ⟨hstatus, hplain⟩ := h
  rw [perform_clear, DriverState.sees, DriverState.after, hpc]
  exact ⟨fun _ => rfl, (if_pos hstatus).trans hplain.symm⟩

theorem onTrack_of_errClear (hpc : d.pc = .errClear) (h : Situation c d s .errClear) :
    OnTrack c (d.sees (s.perform (.host (encode .clear)))) (s.perform (.host (encode .clear))) := by
  rw [perform_clear, DriverState.sees, DriverState.after, hpc]
  exact ⟨fun _ => rfl, Eq.symm h⟩

/-- Every transaction of the driver keeps it on its track. -/
theorem OnTrack.host {i : Instr} (h : OnTrack c d s) (hi : d.issues = some i) :
    OnTrack c (d.sees (s.perform (.host (encode i)))) (s.perform (.host (encode i))) := by
  obtain ⟨hquiet, hsit⟩ := h
  cases hpc : d.pc <;> simp only [DriverState.issues, hpc, Option.some.injEq, reduceCtorEq] at hi <;> subst hi <;>
    rw [hpc] at hsit hquiet
  case firstClear => exact onTrack_of_firstClear hpc hsit
  case setlen => exact onTrack_of_setlen hpc (hquiet (by decide)) hsit
  case start => exact onTrack_of_start hpc (hquiet (by decide)) hsit
  case firstStat => exact onTrack_of_firstStat hpc (hquiet (by decide)) hsit
  case errClear => exact onTrack_of_errClear hpc hsit
  case push => exact onTrack_of_push hpc (hquiet (by decide)) hsit
  case waito => exact onTrack_of_waito hpc (hquiet (by decide)) hsit
  case pop => exact onTrack_of_pop hpc (hquiet (by decide)) hsit
  case lastStat => exact onTrack_of_lastStat hpc (hquiet (by decide)) hsit
  case lastClear => exact onTrack_of_lastClear hpc hsit

/-- ENGINE's turn does the block step that WAITO waits for, and before and after it nothing. -/
theorem Situation.engine {pc : DriverPc} (h : Situation c d s pc) : Situation c d (s.perform .engine) pc := by
  have hstill (hp : s.phase ≠ .run ∨ s.ifill.val < 16 ∨ 0 < s.orem.val) :
      s.perform .engine = { s with agenda := [] } := by
    refine engineTurn_of_not_busy engineConfig { s with agenda := [] } (Bool.eq_false_iff.mpr fun hb => ?_)
    obtain ⟨hrun, hfull, hread⟩ := (busy_iff _).mp hb
    rcases hp with hp | hp | hp
    · exact hp hrun
    · exact (Nat.ne_of_lt hp) hfull
    · exact (Nat.ne_of_gt hp) hread
  cases pc with
  | firstClear | errClear | lastClear | returned _ => exact h
  | setlen =>
    obtain ⟨hfresh, hinv, hp⟩ := h
    rw [hstill (.inl (by simp [hp]))]
    exact ⟨hfresh, hinv.withAgenda [], hp⟩
  | start =>
    obtain ⟨hfresh, hinv, hp, hlen⟩ := h
    rw [hstill (.inl (by simp [hp]))]
    exact ⟨hfresh, hinv.withAgenda [], hp, hlen⟩
  | firstStat =>
    rcases h with ⟨hp, herr⟩ | ⟨hs, hp, hifill, horem⟩
    · rw [hstill (.inl (by simp [hp]))]
      exact .inl ⟨hp, herr⟩
    · rw [hstill (.inr (.inl (by omega)))]
      exact .inr ⟨hs.withPort s.perr s.rdata [], hp, hifill, horem⟩
  | push =>
    obtain ⟨hs, hp, hifill, hcount, hrest⟩ := h
    rw [hstill (.inr (.inl (by omega)))]
    exact ⟨hs.withPort s.perr s.rdata [], hp, hifill, hcount, hrest⟩
  | waito =>
    obtain ⟨hs, hp, ⟨hifill, horem⟩ | ⟨hifill, horem⟩⟩ := h
    · have hb : s.busy = true := (busy_iff s).mpr ⟨hp, hifill, horem⟩
      have hnext := (hs.withPort s.perr s.rdata []).engineTurn
      rw [← perform_engine, perform_engine_of_busy hb] at hnext
      rw [perform_engine_of_busy hb]
      exact ⟨hnext, hp, .inr ⟨rfl, rfl⟩⟩
    · rw [hstill (.inr (.inl (by omega)))]
      exact ⟨hs.withPort s.perr s.rdata [], hp, .inr ⟨hifill, horem⟩⟩
  | pop =>
    obtain ⟨hs, hp, hifill, hrest⟩ := h
    rw [hstill (.inr (.inl (by omega)))]
    exact ⟨hs.withPort s.perr s.rdata [], hp, hifill, hrest⟩
  | lastStat =>
    obtain ⟨hs, hp⟩ := h
    rw [hstill (.inl (by simp [hp]))]
    exact ⟨hs.withPort s.perr s.rdata [], hp⟩

theorem OnTrack.engine (h : OnTrack c d s) : OnTrack c d (s.perform .engine) :=
  ⟨fun hpc => (engineTurn_perr engineConfig { s with agenda := [] }).trans (h.quiet hpc), h.situation.engine⟩

end

theorem System.turn_host_of_issues {y : System} {i : Instr} (hi : y.driver.issues = some i) :
    y.turn .host =
      ⟨y.driver.sees (y.engine.perform (.host (encode i))), y.engine.perform (.host (encode i))⟩ := by
  simp only [System.turn, hi]
  rfl

theorem System.turn_host_of_none {y : System} (hi : y.driver.issues = none) : y.turn .host = y := by
  simp only [System.turn, hi]

theorem OnTrack.turn {c : List Byte} {y : System} (h : OnTrack c y.driver y.engine) {t : Turn} (ht : t ≠ .reset) :
    OnTrack c (y.turn t).driver (y.turn t).engine := by
  cases t with
  | engine => exact h.engine
  | reset => exact absurd rfl ht
  | host =>
    cases hi : y.driver.issues with
    | none => rwa [System.turn_host_of_none hi]
    | some i => rw [System.turn_host_of_issues hi]; exact h.host hi

/-- Without reset the driver stays on its track. -/
theorem OnTrack.run {c : List Byte} {y : System} (h : OnTrack c y.driver y.engine) {sched : Nat → Turn}
    (hsched : ∀ n, sched n ≠ .reset) (n : Nat) :
    OnTrack c (System.run sched y n).driver (System.run sched y n).engine := by
  induction n with
  | zero => exact h
  | succ n ih => exact ih.turn (hsched n)

/-- Settles O42: PERR = 0 is kept from the first CLEAR on. -/
theorem driverNeverViolatesTheProtocol : Obligations.DriverNeverViolatesTheProtocol :=
  fun _ s _ n hc hsched hpc => ((onTrack_init hc s).run hsched n).quiet hpc

end Sys2Proof.Machine
end

section
/-! The driver returns on every fair schedule (rules R127, R166): each turn of the agent that is waited for lowers a
rank, and no other turn raises it. -/

namespace Sys2Proof.Machine

/-- How far the driver is from its return: more than the turns still needed of the host and of ENGINE. -/
def rank (d : DriverState) (s : State) : Nat :=
  match d.pc with
  | .firstClear => 3 * d.todo.length + 8
  | .setlen => 3 * d.todo.length + 7
  | .start => 3 * d.todo.length + 6
  | .firstStat => 3 * d.todo.length + 5
  | .errClear => 1
  | .push => 3 * d.todo.length + 2 * d.count + 4
  | .waito => 3 * d.todo.length + if s.ordy then 35 else 36
  | .pop => 3 * d.todo.length + 19 + (15 - d.count)
  | .lastStat => 2
  | .lastClear => 1
  | .returned _ => 0

/-- The agent whose turn brings the driver on: ENGINE when WAITO waits for the block step, else the host. -/
def awaited (d : DriverState) (s : State) : Turn := if d.pc = .waito ∧ s.ordy = false then .engine else .host

theorem rank_eq_zero_iff (d : DriverState) (s : State) : rank d s = 0 ↔ ∃ r, d.pc = .returned r := by
  cases hpc : d.pc <;> simp [rank, hpc]
  split_ifs <;> simp

theorem awaited_cases (d : DriverState) (s : State) : awaited d s = .engine ∨ awaited d s = .host := by
  rw [awaited]
  split_ifs <;> simp

theorem rank_nextBlock (d : DriverState) (s : State) : rank d.nextBlock s ≤ 3 * d.todo.length + 4 := by
  rw [DriverState.nextBlock]
  split_ifs <;> simp [rank]

section
variable {c : List Byte} {d : DriverState} {s : State}

/-- Every transaction of the driver but a vain poll of WAITO lowers the rank. -/
theorem rank_sees_lt {i : Instr} (h : OnTrack c d s) (hi : d.issues = some i) (hw : awaited d s = .host) :
    rank (d.sees (s.perform (.host (encode i)))) (s.perform (.host (encode i))) < rank d s := by
  obtain ⟨-, hsit⟩ := h
  cases hpc : d.pc <;> simp only [DriverState.issues, hpc, Option.some.injEq, reduceCtorEq] at hi <;> subst hi <;>
    rw [hpc] at hsit
  case firstClear | setlen | start | errClear | lastStat | lastClear =>
    simp [rank, DriverState.sees, DriverState.after, hpc]
  case firstStat =>
    simp only [DriverState.sees, DriverState.after, hpc]
    split_ifs
    · simp [rank, hpc]
    · refine (rank_nextBlock _ _).trans_lt ?_
      simp [rank, hpc]
  case push =>
    obtain ⟨-, -, -, hcount, -, hne⟩ := hsit
    have hpos := List.length_pos_iff.mpr hne
    simp only [DriverState.sees, DriverState.after, hpc]
    split_ifs
    · simp only [rank, hpc, List.length_tail]; split_ifs <;> omega
    · simp only [rank, hpc, List.length_tail]; omega
  case waito =>
    have ho : s.ordy = true := by simpa [awaited, hpc] using hw
    rw [DriverState.sees_stat_of_waito hpc, if_pos ho]
    simp [rank, hpc, ho]
  case pop =>
    obtain ⟨-, -, -, -, hcount⟩ := hsit
    simp only [DriverState.sees, DriverState.after, hpc]
    split_ifs
    · refine (rank_nextBlock _ _).trans_lt ?_
      simp only [rank, hpc]; omega
    · simp only [rank, hpc]; omega

theorem awaited_eq_engine_iff : awaited d s = .engine ↔ d.pc = .waito ∧ s.ordy = false := by
  simp [awaited]

/-- The block step that WAITO waits for lowers the rank. -/
theorem rank_engine_lt (h : OnTrack c d s) (hw : awaited d s = .engine) : rank d (s.perform .engine) < rank d s := by
  obtain ⟨hpc, ho⟩ := awaited_eq_engine_iff.mp hw
  have hsit := h.situation
  rw [hpc] at hsit
  obtain ⟨-, hp, hblock⟩ := hsit
  have hread : ¬ 0 < s.orem.val := fun hpos => Bool.false_ne_true (ho.symm.trans ((ordy_iff s).mpr hpos))
  have hb : s.busy = true := (busy_iff s).mpr ⟨hp, by omega, by omega⟩
  have hready : (s.perform .engine).ordy = true := by rw [perform_engine_of_busy hb]; rfl
  simp [rank, hpc, ho, hready]

/-- A turn of ENGINE that is not awaited leaves the driver as far from its return, and the host awaited. -/
theorem rank_engine_of_awaited_host (hw : awaited d s = .host) :
    rank d (s.perform .engine) = rank d s ∧ awaited d (s.perform .engine) = .host := by
  by_cases hpc : d.pc = .waito
  · have ho : s.ordy = true := by simpa [awaited, hpc] using hw
    rw [perform_engine_of_ready s (.inr ho)]
    exact ⟨rfl, hw⟩
  · refine ⟨?_, by simp [awaited, hpc]⟩
    cases hpc' : d.pc <;> simp_all [rank]

/-- A vain poll of WAITO leaves the driver as far from its return, and ENGINE awaited. -/
theorem rank_sees_of_awaited_engine {i : Instr} (hi : d.issues = some i) (hw : awaited d s = .engine) :
    rank (d.sees (s.perform (.host (encode i)))) (s.perform (.host (encode i))) = rank d s ∧
    awaited (d.sees (s.perform (.host (encode i)))) (s.perform (.host (encode i))) = .engine := by
  obtain ⟨hpc, ho⟩ := awaited_eq_engine_iff.mp hw
  simp only [DriverState.issues, hpc, Option.some.injEq] at hi
  subst hi
  have hstill : (s.perform (.host (encode .stat))).ordy = false := by rw [perform_stat]; exact ho
  rw [DriverState.sees_stat_of_waito hpc]
  simp [rank, awaited, hpc, ho, hstill]
end

/-! ### The run -/

/-- A run of n + m turns is one of n turns and then one of m turns on the rest of the schedule. -/
theorem System.run_add (sched : Nat → Turn) (y : System) (n m : Nat) :
    System.run sched y (n + m) = System.run (fun k => sched (n + k)) (System.run sched y n) m := by
  induction m with
  | zero => rfl
  | succ m ih => rw [← Nat.add_assoc, System.run, ih, System.run]

theorem DriverState.exists_issues {d : DriverState} {s : State} (hr : 0 < rank d s) : ∃ i, d.issues = some i := by
  cases hpc : d.pc <;> simp_all [DriverState.issues, rank]

/-- The rank of a driver and its engine. -/
def System.rank (y : System) : Nat := Machine.rank y.driver y.engine

def System.awaited (y : System) : Turn := Machine.awaited y.driver y.engine

section
variable {c : List Byte} {y : System}

/-- The turn that is awaited brings the driver nearer to its return. -/
theorem OnTrack.rank_turn_lt (h : OnTrack c y.driver y.engine) (hr : 0 < y.rank) :
    (y.turn y.awaited).rank < y.rank := by
  rcases awaited_cases y.driver y.engine with hw | hw <;> rw [System.awaited, hw]
  · exact rank_engine_lt h hw
  · obtain ⟨i, hi⟩ := DriverState.exists_issues hr
    rw [System.turn_host_of_issues hi]
    exact rank_sees_lt h hi hw

/-- Any other turn leaves it as near, and the same turn awaited. -/
theorem rank_turn_eq (hr : 0 < y.rank) {t : Turn} (ht : t ≠ .reset) (hw : t ≠ y.awaited) :
    (y.turn t).rank = y.rank ∧ (y.turn t).awaited = y.awaited := by
  rcases awaited_cases y.driver y.engine with ha | ha <;> rw [System.awaited, System.awaited, ha] <;>
    rw [System.awaited, ha] at hw
  · obtain rfl : t = .host := by cases t <;> simp_all
    obtain ⟨i, hi⟩ := DriverState.exists_issues hr
    rw [System.turn_host_of_issues hi]
    exact rank_sees_of_awaited_engine hi ha
  · obtain rfl : t = .engine := by cases t <;> simp_all
    exact rank_engine_of_awaited_host ha

/-- Sooner or later the driver is nearer to its return. -/
theorem OnTrack.exists_rank_lt (h : OnTrack c y.driver y.engine) (hr : 0 < y.rank) {sched : Nat → Turn}
    (hfair : FairSchedule sched) : ∃ n, (System.run sched y n).rank < y.rank := by
  have hex : ∃ n, sched n = y.awaited := hfair.exists_turn (by
    rcases awaited_cases y.driver y.engine with ha | ha <;> simp [System.awaited, ha])
  have hwait (n : Nat) (hn : n ≤ Nat.find hex) :
      (System.run sched y n).rank = y.rank ∧ (System.run sched y n).awaited = y.awaited := by
    induction n with
    | zero => exact ⟨rfl, rfl⟩
    | succ n ih =>
      obtain ⟨hrank, haw⟩ := ih (Nat.le_of_succ_le hn)
      rw [← hrank, ← haw]
      exact rank_turn_eq (hrank ▸ hr) (hfair.noReset n) (haw ▸ Nat.find_min hex hn)
  obtain ⟨hrank, haw⟩ := hwait _ le_rfl
  refine ⟨Nat.find hex + 1, ?_⟩
  have hlt := (h.run hfair.noReset _).rank_turn_lt (hrank ▸ hr)
  rw [haw, hrank] at hlt
  rwa [System.run, Nat.find_spec hex]

/-- On a fair schedule the driver returns, by induction on the rank. -/
theorem OnTrack.exists_returned (h : OnTrack c y.driver y.engine) {sched : Nat → Turn} (hfair : FairSchedule sched) :
    ∃ n r, (System.run sched y n).returned r := by
  induction hk : y.rank using Nat.strong_induction_on generalizing y sched with
  | _ k ih =>
    subst hk
    rcases Nat.eq_zero_or_pos y.rank with h0 | hpos
    · exact ⟨0, (rank_eq_zero_iff _ _).mp h0⟩
    · obtain ⟨n, hn⟩ := h.exists_rank_lt hpos hfair
      obtain ⟨m, r, hm⟩ := ih _ hn (h.run hfair.noReset n) (hfair.drop n) rfl
      exact ⟨n + m, r, by rwa [System.run_add]⟩

/-- A driver that has returned stays as it is. -/
theorem returned_turn {r : DriverResult} (h : y.returned r) (t : Turn) : (y.turn t).returned r := by
  cases t with
  | engine | reset => exact h
  | host =>
    have hi : y.driver.issues = none := by
      have hpc : y.driver.pc = .returned r := h
      simp [DriverState.issues, hpc]
    rwa [System.turn_host_of_none hi]

theorem returned_run {r : DriverResult} {sched : Nat → Turn} {n m : Nat} (hnm : n ≤ m)
    (h : (System.run sched y n).returned r) : (System.run sched y m).returned r := by
  induction m, hnm using Nat.le_induction with
  | base => exact h
  | succ m _ ih => exact returned_turn ih (sched m)

end

/-- What a driver on its track returns is what rule R127 says. -/
theorem OnTrack.eq_driverAnswer {c : List Byte} {d : DriverState} {s : State} {r : DriverResult} (h : OnTrack c d s)
    (hr : d.pc = .returned r) : r = driverAnswer c := by
  have hsit := h.situation
  rwa [hr] at hsit

/-- Settles O41: on its track the driver returns, and returns what it should; the contract is a composition by
definition. -/
theorem driverComputesTheContract : Obligations.DriverComputesTheContract := by
  intro c s sched hc hfair
  have hstart := onTrack_init hc s
  obtain ⟨n, r, hr⟩ := hstart.exists_returned (y := ⟨.init c, s⟩) hfair
  obtain rfl := (hstart.run (y := ⟨.init c, s⟩) hfair.noReset n).eq_driverAnswer hr
  refine ⟨⟨n, fun m hm => returned_run hm hr⟩, ?_⟩
  rw [decrypt, decryptWith, driverAnswer]
  split_ifs
  · rfl
  · dsimp only
    cases utf16leDecode (cbcDecrypt engineConfig.key engineConfig.iv c) <;> rfl

end Sys2Proof.Machine
end

section
/-! The driver under resets (rule R161): a reset that falls between SETLEN and the last STAT leaves an engine that does
not come to DONE again, so that the last STAT sees another STATUS than 0x00000002. -/

namespace Sys2Proof.Machine

/-- No message is open, and none is over. -/
structure State.NoMessage (s : State) : Prop where
  inv : s.Inv
  phase : s.phase = .idle ∨ s.phase = .err

/-- No plaintext will be returned: no message is open, nor will the driver open one, or its last STATUS was not
0x00000002. -/
def Lost (d : DriverState) (s : State) : Prop :=
  match d.pc with
  | .firstClear | .setlen => False
  | .start => s.Inv ∧ s.phase = .idle ∧ badLength s.len = true
  | .firstStat | .push | .waito | .pop | .lastStat => s.NoMessage
  | .errClear => True
  | .lastClear => d.status ≠ 0x00000002#32
  | .returned r => ∀ p, r ≠ .ok p

theorem State.NoMessage.withPort {s : State} (h : s.NoMessage) (p : Bool) (r : Option Word) (a : List Event) :
    State.NoMessage { s with perr := p, rdata := r, agenda := a } :=
  ⟨h.inv.withPort p r a, h.phase⟩

theorem noMessage_reset : State.reset.NoMessage := ⟨inv_reset, .inl rfl⟩

/-- Nothing but START opens a message (rule R71). -/
theorem State.NoMessage.exec {i : Instr} {s t : State} (h : s.NoMessage) (hi : isOfMessage i = true)
    (ht : exec i s = .next t) : t.NoMessage := by
  refine ⟨h.inv.exec ht, ?_⟩
  have hstay : stateTable s i = s.phase := by
    cases i with
    | pop => rcases h.phase with hp | hp <;> simp [stateTable, hp]
    | push _ | stat | getlen | geticnt | getocnt => rfl
    | start | clear | ctrlrsvd _ | setlen _ | illegal _ _ => cases hi
  rw [exec_phase_eq_stateTable h.inv ht, hstay]
  exact h.phase

theorem State.NoMessage.perform {i : Instr} {s : State} (h : s.NoMessage) (hwf : i.wf = true)
    (hi : isOfMessage i = true) : (s.perform (.host (encode i))).NoMessage := by
  have ht := exec_eq_perform (encode i) s
  rw [decode_encode i hwf] at ht
  exact (h.withPort s.perr s.rdata []).exec hi ht

theorem State.NoMessage.engine {s : State} (h : s.NoMessage) : (s.perform .engine).NoMessage := by
  have hnot : s.phase ≠ .run := by rcases h.phase with hp | hp <;> simp [hp]
  obtain ⟨-, -, hb⟩ := h.inv.quiet hnot
  rw [perform_engine, engineTurn_of_not_busy engineConfig { s with agenda := [] } hb]
  exact h.withPort s.perr s.rdata []

/-- Without a message STATUS is not that of DONE (rule R18). -/
theorem State.NoMessage.statusWord_ne {s : State} (h : s.NoMessage) : s.statusWord ≠ 0x00000002#32 := by
  intro hdone
  have hphase := statusWord_phase s
  rcases h.phase with hp | hp <;> rw [hdone, hp] at hphase <;> exact absurd hphase (by decide)

theorem lost_nextBlock {d : DriverState} {s : State} (h : s.NoMessage) : Lost d.nextBlock s := by
  rw [DriverState.nextBlock]
  split_ifs <;> exact h

section
variable {c : List Byte} {d : DriverState} {s : State}

theorem Lost.host {i : Instr} (h : Lost d s) (hi : d.issues = some i) :
    Lost (d.sees (s.perform (.host (encode i)))) (s.perform (.host (encode i))) := by
  rw [Lost] at h
  cases hpc : d.pc <;> simp only [DriverState.issues, hpc, Option.some.injEq, reduceCtorEq] at hi <;> subst hi <;>
    simp only [hpc] at h
  case start =>
    obtain ⟨hinv, hp, hb⟩ := h
    rw [perform_start_of_badLength s hp hb, DriverState.sees, DriverState.after, hpc]
    exact ⟨((hinv.withAgenda []).raiseInvalidLength hp hb).noAnswer, .inr rfl⟩
  case firstStat =>
    have hnext := h.perform (i := .stat) rfl rfl
    rw [DriverState.sees, DriverState.after, hpc]
    dsimp only
    split_ifs
    · trivial
    · exact lost_nextBlock hnext
  case errClear =>
    rw [DriverState.sees, DriverState.after, hpc]
    exact fun p => by simp
  case push =>
    have hnext := h.perform (i := .push (d.todo.headD 0#8)) rfl rfl
    rw [DriverState.sees, DriverState.after, hpc]
    dsimp only
    split_ifs
    · exact hnext
    · exact hnext
  case waito =>
    have hnext := h.perform (i := .stat) rfl rfl
    rw [DriverState.sees_stat_of_waito hpc]
    split_ifs
    · exact hnext
    · simpa [Lost, hpc] using hnext
  case pop =>
    have hnext := h.perform (i := .pop) rfl rfl
    rw [DriverState.sees, DriverState.after, hpc]
    dsimp only
    split_ifs
    · exact lost_nextBlock hnext
    · simpa [Lost, hpc] using hnext
  case lastStat =>
    rw [DriverState.sees_stat, DriverState.after, hpc]
    exact h.statusWord_ne
  case lastClear =>
    rw [DriverState.sees, DriverState.after, hpc]
    simp [Lost, DriverState.result, h]

theorem Lost.engine (h : Lost d s) : Lost d (s.perform .engine) := by
  unfold Lost at h ⊢
  cases hpc : d.pc <;> simp only [hpc] at h ⊢
  case start =>
    obtain ⟨hinv, hp, hb⟩ := h
    rw [perform_engine, engineTurn_of_not_busy engineConfig { s with agenda := [] } (by simp [State.busy, hp])]
    exact ⟨hinv.withAgenda [], hp, hb⟩
  case firstStat | push | waito | pop | lastStat => exact h.engine
  case lastClear => exact h
  case returned => exact h

theorem Lost.reset (h : Lost d s) : Lost d State.reset := by
  unfold Lost at h ⊢
  cases hpc : d.pc <;> simp only [hpc] at h ⊢
  case start => exact ⟨inv_reset, rfl, rfl⟩
  case firstStat | push | waito | pop | lastStat => exact noMessage_reset
  case lastClear => exact h
  case returned => exact h

/-- A reset does no harm before SETLEN and after the last STAT; in between the message is lost. -/
theorem OnTrack.reset (h : OnTrack c d s) : OnTrack c d State.reset ∨ Lost d State.reset := by
  obtain ⟨-, hsit⟩ := h
  cases hpc : d.pc <;> rw [hpc] at hsit
  case firstClear | errClear | lastClear | returned => exact .inl ⟨fun _ => rfl, by rw [hpc]; exact hsit⟩
  case setlen =>
    obtain ⟨hfresh, -⟩ := hsit
    exact .inl ⟨fun _ => rfl, by rw [hpc]; exact ⟨hfresh, inv_reset, rfl⟩⟩
  case start => exact .inr (by rw [Lost, hpc]; exact ⟨inv_reset, rfl, rfl⟩)
  case firstStat | push | waito | pop | lastStat => exact .inr (by rw [Lost, hpc]; exact noMessage_reset)

end

theorem Lost.turn {y : System} (h : Lost y.driver y.engine) (t : Turn) : Lost (y.turn t).driver (y.turn t).engine := by
  cases t with
  | engine => exact h.engine
  | reset => exact h.reset
  | host =>
    cases hi : y.driver.issues with
    | none => rwa [System.turn_host_of_none hi]
    | some i => rw [System.turn_host_of_issues hi]; exact h.host hi

/-- Whatever resets fall, the driver stays on its track or is lost. -/
theorem onTrack_or_lost_run {c : List Byte} (hc : c.length < 2 ^ 32) (s : State) (sched : Nat → Turn) (n : Nat) :
    OnTrack c (System.run sched ⟨.init c, s⟩ n).driver (System.run sched ⟨.init c, s⟩ n).engine ∨
      Lost (System.run sched ⟨.init c, s⟩ n).driver (System.run sched ⟨.init c, s⟩ n).engine := by
  induction n with
  | zero => exact .inl (onTrack_init hc s)
  | succ n ih =>
    rcases ih with htrack | hlost
    · by_cases ht : sched n = .reset
      · rw [System.run, ht]
        exact htrack.reset
      · exact .inl (htrack.turn ht)
    · exact .inr (hlost.turn (sched n))

/-- A ciphertext that LEN cannot hold is refused at once (rule R126). -/
theorem returned_tooLong {c : List Byte} (hc : ¬ c.length < 2 ^ 32) (s : State) (sched : Nat → Turn) (n : Nat) :
    (System.run sched ⟨.init c, s⟩ n).returned .tooLong :=
  returned_run (Nat.zero_le n) (if_neg hc)

/-- Rule R127 gives a plaintext for exactly the good lengths. -/
theorem driverAnswer_eq_ok {c p : List Byte} (h : driverAnswer c = .ok p) :
    c.length % 16 = 0 ∧ 0 < c.length ∧ p = cbcDecrypt engineConfig.key engineConfig.iv c := by
  rw [driverAnswer] at h
  split_ifs at h with hc
  cases h
  exact ⟨by omega, by omega, rfl⟩

/-- Settles O43: a driver that returns a plaintext was never lost. -/
theorem driverOkIsAlwaysRight : Obligations.DriverOkIsAlwaysRight := by
  intro c p s sched n hret
  by_cases hc : c.length < 2 ^ 32
  · rcases onTrack_or_lost_run hc s sched n with htrack | hlost
    · exact driverAnswer_eq_ok (htrack.eq_driverAnswer hret).symm
    · rw [Lost, show (System.run sched ⟨.init c, s⟩ n).driver.pc = _ from hret] at hlost
      exact absurd rfl (hlost p)
  · have htooLong := returned_tooLong hc s sched n
    cases htooLong.symm.trans hret
end Sys2Proof.Machine
end

section
/-! UTF-16LE (rules R120 to R123): the code units between the bytes and the scalar values, decoding as the inverse of
encoding on both levels, the unpaired surrogates, and the trim. -/

namespace Sys2Proof.Machine

/-! ### Bytes and code units -/

/-- The low byte first, and no carry between the two (rule R123). -/
theorem codeUnits_unitBytes_append {u : Nat} (hu : u < 0x10000) (b : List Byte) :
    codeUnits (unitBytes u ++ b) = (codeUnits b).map (u :: ·) := by
  have hval : (BitVec.ofNat 8 (u % 256)).toNat + 256 * (BitVec.ofNat 8 (u / 256)).toNat = u := by
    rw [BitVec.toNat_ofNat, BitVec.toNat_ofNat]; omega
  rw [unitBytes, List.cons_append, List.singleton_append, codeUnits, hval]

theorem codeUnits_flatMap_append {us : List Nat} (hus : ∀ u ∈ us, u < 0x10000) (b : List Byte) :
    codeUnits (us.flatMap unitBytes ++ b) = (codeUnits b).map (us ++ ·) := by
  induction us with
  | nil => simp
  | cons u us ih =>
    obtain ⟨hu, hus⟩ := List.forall_mem_cons.mp hus
    rw [List.flatMap_cons, List.append_assoc, codeUnits_unitBytes_append hu, ih hus, Option.map_map]
    rfl

theorem unitBytes_of_bytes (lo hi : Byte) : unitBytes (lo.toNat + 256 * hi.toNat) = [lo, hi] := by
  have hlo := lo.isLt
  have hlow : (lo.toNat + 256 * hi.toNat) % 256 = lo.toNat := by omega
  have hhigh : (lo.toNat + 256 * hi.toNat) / 256 = hi.toNat := by omega
  rw [unitBytes, hlow, hhigh, BitVec.ofNat_toNat, BitVec.ofNat_toNat, BitVec.setWidth_eq, BitVec.setWidth_eq]

/-- The code units of a byte sequence are 16-bit numbers that give its bytes back (rule R120). -/
theorem codeUnits_eq_some {b : List Byte} {us : List Nat} (h : codeUnits b = some us) :
    us.flatMap unitBytes = b ∧ ∀ u ∈ us, u < 0x10000 := by
  induction b using codeUnits.induct generalizing us with
  | case1 => cases h; simp
  | case2 _ => cases h
  | case3 lo hi rest ih =>
    rw [codeUnits, Option.map_eq_some_iff] at h
    obtain ⟨us, hrest, rfl⟩ := h
    obtain ⟨hbytes, hsmall⟩ := ih hrest
    have hlo := lo.isLt
    have hhi := hi.isLt
    refine ⟨?_, List.forall_mem_cons.mpr ⟨by omega, hsmall⟩⟩
    rw [List.flatMap_cons, unitBytes_of_bytes, hbytes]
    rfl

/-! ### Code units and scalar values -/

theorem isHigh_iff (u : Nat) : isHigh u = true ↔ 0xD800 ≤ u ∧ u ≤ 0xDBFF := by simp [isHigh]

theorem isLow_iff (u : Nat) : isLow u = true ↔ 0xDC00 ≤ u ∧ u ≤ 0xDFFF := by simp [isLow]

theorem isHigh_of_isLow {u : Nat} (h : isLow u = true) : isHigh u = false := by
  rw [isLow_iff] at h
  exact Bool.eq_false_iff.mpr (mt (isHigh_iff u).mp (by omega))

theorem scalarsOf_of_scalar {u : Nat} (hh : isHigh u = false) (hl : isLow u = false) (us : List Nat) :
    scalarsOf (u :: us) = (scalarsOf us).map (Char.ofNat u :: ·) := by
  cases us <;> simp [scalarsOf, hh, hl]

theorem scalarsOf_of_pair {u l : Nat} (hu : isHigh u = true) (hl : isLow l = true) (us : List Nat) :
    scalarsOf (u :: l :: us) = (scalarsOf us).map (Char.ofNat (pairValue u l) :: ·) := by
  simp [scalarsOf, hu, hl]

/-- A low surrogate that no high one precedes (rule R120). -/
theorem scalarsOf_of_low {u : Nat} (hu : isLow u = true) (us : List Nat) : scalarsOf (u :: us) = none := by
  cases us <;> simp [scalarsOf, hu, isHigh_of_isLow hu]

/-- A high surrogate at the end (rule R120). -/
theorem scalarsOf_of_high_last {u : Nat} (hu : isHigh u = true) : scalarsOf [u] = none := by
  simp [scalarsOf, hu]

/-- A high surrogate that no low one follows (rule R120). -/
theorem scalarsOf_of_high {u v : Nat} (hu : isHigh u = true) (hv : isLow v = false) (us : List Nat) :
    scalarsOf (u :: v :: us) = none := by
  simp [scalarsOf, hu, hv]

/-- The code units of one scalar value (rule R123). -/
def scalarUnits (c : Char) : List Nat :=
  if c.toNat < 0x10000 then [c.toNat]
  else [0xD800 + (c.toNat - 0x10000) / 0x400, 0xDC00 + (c.toNat - 0x10000) % 0x400]

theorem scalarBytes_eq (c : Char) : scalarBytes c = (scalarUnits c).flatMap unitBytes := by
  rw [scalarBytes, scalarUnits]
  split_ifs <;> simp

theorem utf16leEncode_eq (t : Text) : utf16leEncode t = (t.flatMap scalarUnits).flatMap unitBytes := by
  rw [List.flatMap_assoc]
  exact congrArg (List.flatMap · t) (funext scalarBytes_eq)

/-- A scalar value is no surrogate, and below 0x110000 (rule R125). -/
theorem scalar_range (c : Char) : c.toNat < 0xD800 ∨ (0xDFFF < c.toNat ∧ c.toNat < 0x110000) := c.valid

theorem scalarUnits_lt {c : Char} {u : Nat} (hu : u ∈ scalarUnits c) : u < 0x10000 := by
  have hc := scalar_range c
  rw [scalarUnits] at hu
  split_ifs at hu <;> simp only [List.mem_cons, List.not_mem_nil, or_false] at hu <;> omega

theorem textUnits_lt {t : Text} : ∀ u ∈ t.flatMap scalarUnits, u < 0x10000 := by
  intro u hu
  obtain ⟨c, -, hu⟩ := List.mem_flatMap.mp hu
  exact scalarUnits_lt hu

/-- One scalar value is decoded from its code units, whatever follows (rules R120, R123). -/
theorem scalarsOf_scalarUnits_append (c : Char) (us : List Nat) :
    scalarsOf (scalarUnits c ++ us) = (scalarsOf us).map (c :: ·) := by
  have hc := scalar_range c
  rw [scalarUnits]
  split_ifs with hsmall
  · have hh : isHigh c.toNat = false := Bool.eq_false_iff.mpr (mt (isHigh_iff _).mp (by omega))
    have hl : isLow c.toNat = false := Bool.eq_false_iff.mpr (mt (isLow_iff _).mp (by omega))
    rw [List.singleton_append, scalarsOf_of_scalar hh hl, Char.ofNat_toNat]
  · have hh : isHigh (0xD800 + (c.toNat - 0x10000) / 0x400) = true := (isHigh_iff _).mpr (by omega)
    have hl : isLow (0xDC00 + (c.toNat - 0x10000) % 0x400) = true := (isLow_iff _).mpr (by omega)
    have hval : pairValue (0xD800 + (c.toNat - 0x10000) / 0x400) (0xDC00 + (c.toNat - 0x10000) % 0x400) = c.toNat := by
      unfold pairValue; omega
    rw [List.cons_append, List.singleton_append, scalarsOf_of_pair hh hl, hval, Char.ofNat_toNat]

theorem scalarsOf_textUnits_append (t : Text) (us : List Nat) :
    scalarsOf (t.flatMap scalarUnits ++ us) = (scalarsOf us).map (t ++ ·) := by
  induction t with
  | nil => simp
  | cons c t ih =>
    rw [List.flatMap_cons, List.append_assoc, scalarsOf_scalarUnits_append, ih, Option.map_map]
    rfl

theorem scalarUnits_ofNat {u : Nat} (hu : u < 0x10000) (hh : isHigh u = false) (hl : isLow u = false) :
    scalarUnits (Char.ofNat u) = [u] := by
  have hh := mt (isHigh_iff u).mpr (by simp [hh])
  have hl := mt (isLow_iff u).mpr (by simp [hl])
  have hvalid : u.isValidChar := by unfold Nat.isValidChar; omega
  rw [scalarUnits, Char.toNat_ofNat, if_pos hvalid, if_pos hu]

theorem scalarUnits_pairValue {u l : Nat} (hu : isHigh u = true) (hl : isLow l = true) :
    scalarUnits (Char.ofNat (pairValue u l)) = [u, l] := by
  rw [isHigh_iff] at hu
  rw [isLow_iff] at hl
  have hvalid : (pairValue u l).isValidChar := .inr (by unfold pairValue; omega)
  have hbig : ¬ pairValue u l < 0x10000 := by unfold pairValue; omega
  have hhigh : 0xD800 + (pairValue u l - 0x10000) / 0x400 = u := by unfold pairValue; omega
  have hlow : 0xDC00 + (pairValue u l - 0x10000) % 0x400 = l := by unfold pairValue; omega
  rw [scalarUnits, Char.toNat_ofNat, if_pos hvalid, if_neg hbig, hhigh, hlow]

/-- What is decoded from 16-bit code units encodes to them again (rules R120, R123). -/
theorem textUnits_of_scalarsOf {us : List Nat} {t : Text} (hus : ∀ u ∈ us, u < 0x10000) (h : scalarsOf us = some t) :
    t.flatMap scalarUnits = us := by
  induction us using scalarsOf.induct generalizing t with
  | case1 => cases h; rfl
  | case2 u hu =>
    rcases Bool.or_eq_true_iff.mp hu with hu | hu
    · cases (scalarsOf_of_high_last hu).symm.trans h
    · cases (scalarsOf_of_low hu []).symm.trans h
  | case3 u hu =>
    obtain ⟨hh, hl⟩ : isHigh u = false ∧ isLow u = false := by simpa using hu
    cases (scalarsOf_of_scalar hh hl []).symm.trans h
    simp [scalarUnits_ofNat (hus u List.mem_cons_self) hh hl]
  | case4 u l rest hu hl ih =>
    rw [scalarsOf_of_pair hu hl, Option.map_eq_some_iff] at h
    obtain ⟨t, ht, rfl⟩ := h
    have hrest := ih (fun v hv => hus v (List.mem_cons_of_mem _ (List.mem_cons_of_mem _ hv))) ht
    rw [List.flatMap_cons, scalarUnits_pairValue hu hl, hrest]
    rfl
  | case5 u l rest hu hl => cases (scalarsOf_of_high hu (by simpa using hl) rest).symm.trans h
  | case6 u l rest _ hu => cases (scalarsOf_of_low hu (l :: rest)).symm.trans h
  | case7 u l rest hh hl ih =>
    have hh : isHigh u = false := by simpa using hh
    have hl : isLow u = false := by simpa using hl
    rw [scalarsOf_of_scalar hh hl, Option.map_eq_some_iff] at h
    obtain ⟨t, ht, rfl⟩ := h
    obtain ⟨hu, hrest⟩ := List.forall_mem_cons.mp hus
    rw [List.flatMap_cons, scalarUnits_ofNat hu hh hl, ih hrest ht]
    rfl

/-! ### Decoding and encoding -/

theorem utf16leDecode_eq_ok_iff_units (b : List Byte) (t : Text) :
    utf16leDecode b = .ok t ↔ ∃ us, codeUnits b = some us ∧ scalarsOf us = some t := by
  rw [utf16leDecode]
  cases hb : codeUnits b with
  | none => simp
  | some us => cases hus : scalarsOf us <;> simp [hus]

/-- Decoding inverts encoding, and encoding decoding (rules R120, R123). -/
theorem utf16leDecode_eq_ok_iff (b : List Byte) (t : Text) : utf16leDecode b = .ok t ↔ utf16leEncode t = b := by
  rw [utf16leDecode_eq_ok_iff_units, utf16leEncode_eq]
  constructor
  · rintro ⟨us, hus, ht⟩
    obtain ⟨rfl, hsmall⟩ := codeUnits_eq_some hus
    rw [textUnits_of_scalarsOf hsmall ht]
  · rintro rfl
    refine ⟨t.flatMap scalarUnits, ?_, ?_⟩
    · simpa [codeUnits] using codeUnits_flatMap_append (textUnits_lt (t := t)) []
    · simpa [scalarsOf] using scalarsOf_textUnits_append t []

/-- Every failure is DecodeError (rule R121). -/
theorem utf16leDecode_cases (b : List Byte) : (∃ t, utf16leDecode b = .ok t) ∨ utf16leDecode b = .err .decodeError := by
  rw [utf16leDecode]
  cases codeUnits b with
  | none => exact .inr rfl
  | some us => cases hus : scalarsOf us <;> simp [hus]

theorem utf16leDecode_of_no_text {b : List Byte} (hb : ∀ t : Text, utf16leEncode t ≠ b) :
    utf16leDecode b = .err .decodeError :=
  (utf16leDecode_cases b).resolve_left fun ⟨t, ht⟩ => hb t ((utf16leDecode_eq_ok_iff b t).mp ht)

/-- Settles O54: the bytes, the code units and the scalar values determine each other. -/
theorem utf16DecodeInvertsEncode : Obligations.Utf16DecodeInvertsEncode :=
  ⟨utf16leDecode_eq_ok_iff, fun _ => utf16leDecode_of_no_text⟩

/-! ### The causes of DecodeError -/

/-- Whole code units have an even number of bytes (rule R120). -/
theorem length_flatMap_unitBytes (us : List Nat) : (us.flatMap unitBytes).length = 2 * us.length := by
  induction us with
  | nil => rfl
  | cons u us ih =>
    have hunit : (unitBytes u).length = 2 := rfl
    rw [List.flatMap_cons, List.length_append, ih, hunit, List.length_cons]
    omega

theorem length_utf16leEncode (t : Text) : (utf16leEncode t).length % 2 = 0 := by
  rw [utf16leEncode_eq, length_flatMap_unitBytes, Nat.mul_mod_right]

/-- After any text, code units that decode to nothing make the whole decode to nothing. -/
theorem utf16leDecode_of_scalarsOf_eq_none (t : Text) {us : List Nat} (hus : ∀ u ∈ us, u < 0x10000) {rest : List Byte}
    (h : ∀ vs, codeUnits rest = some vs → scalarsOf (us ++ vs) = none) :
    utf16leDecode (utf16leEncode t ++ us.flatMap unitBytes ++ rest) = .err .decodeError := by
  have hunits : codeUnits (utf16leEncode t ++ us.flatMap unitBytes ++ rest) =
      (codeUnits rest).map (t.flatMap scalarUnits ++ us ++ ·) := by
    rw [utf16leEncode_eq, ← List.flatMap_append]
    exact codeUnits_flatMap_append (List.forall_mem_append.mpr ⟨textUnits_lt, hus⟩) rest
  rw [utf16leDecode, hunits]
  cases hrest : codeUnits rest with
  | none => rfl
  | some vs => simp [scalarsOf_textUnits_append, h vs hrest]

theorem isLow_lt {u : Nat} (h : isLow u = true) : u < 0x10000 := by rw [isLow_iff] at h; omega

theorem isHigh_lt {u : Nat} (h : isHigh u = true) : u < 0x10000 := by rw [isHigh_iff] at h; omega

/-- Settles O55, by the code unit that is left unpaired. -/
theorem decodeErrorCauses : Obligations.DecodeErrorCauses := by
  refine ⟨fun b hodd => ?_, fun t u rest hu => ?_, fun t u v rest hu hsmall hv => ?_, fun t u hu => ?_⟩
  · refine utf16leDecode_of_no_text fun t ht => hodd ?_
    exact ht ▸ length_utf16leEncode t
  · simpa using utf16leDecode_of_scalarsOf_eq_none t (us := [u]) (by simpa using isLow_lt hu)
      fun vs _ => scalarsOf_of_low hu vs
  · simpa using utf16leDecode_of_scalarsOf_eq_none t (us := [u, v]) (by simpa using ⟨isHigh_lt hu, hsmall⟩)
      fun vs _ => scalarsOf_of_high hu hv vs
  · have hnone (vs : List Nat) (hvs : codeUnits [] = some vs) : scalarsOf ([u] ++ vs) = none := by
      cases hvs
      exact scalarsOf_of_high_last hu
    simpa using utf16leDecode_of_scalarsOf_eq_none t (by simpa using isHigh_lt hu) hnone

/-! ### TrimNul -/

theorem trimNul_eq_rdropWhile (t : Text) : trimNul t = t.rdropWhile (· == nul) := rfl

/-- Settles O56: what is dropped from the end satisfies the test, and the last character kept does not. -/
theorem trimNulRemovesTrailingNuls : Obligations.TrimNulRemovesTrailingNuls := by
  intro t
  rw [trimNul_eq_rdropWhile]
  constructor
  · have hnuls : t.rtakeWhile (· == nul) = List.replicate (t.rtakeWhile (· == nul)).length nul :=
      List.eq_replicate_length.mpr fun x hx => by simpa using List.mem_rtakeWhile_imp hx
    exact ⟨_, by rw [← hnuls, List.rdropWhile_append_rtakeWhile]⟩
  · intro hlast
    have hne : t.rdropWhile (· == nul) ≠ [] := fun hnil => by simp [hnil] at hlast
    rw [List.getLast?_eq_some_getLast hne] at hlast
    exact List.rdropWhile_last_not (· == nul) t hne (by simpa using hlast)

/-- Characters that do not end in NUL are what is left when NULs are put after them. -/
theorem trimNul_append_replicate {t : Text} (ht : t.getLast? ≠ some nul) (n : Nat) :
    trimNul (t ++ List.replicate n nul) = t := by
  rw [trimNul_eq_rdropWhile]
  induction n with
  | zero =>
    rw [List.replicate_zero, List.append_nil, List.rdropWhile_eq_self_iff]
    intro hne hnul
    rw [List.getLast?_eq_some_getLast hne] at ht
    exact ht (congrArg some (by simpa using hnul))
  | succ n ih => rw [List.replicate_succ', ← List.append_assoc, List.rdropWhile_concat_pos _ _ _ (by simp), ih]

/-! ### The contract -/

theorem decryptWith_of_badLength (cfg : Config) {c : List Byte} (hc : c.length = 0 ∨ c.length % 16 ≠ 0) :
    decryptWith cfg c = .err .invalidLength :=
  if_pos hc

theorem decryptWith_of_ok (cfg : Config) {c : List Byte} {t : Text} (hc : ¬ (c.length = 0 ∨ c.length % 16 ≠ 0))
    (ht : utf16leDecode (cbcDecrypt cfg.key cfg.iv c) = .ok t) : decryptWith cfg c = .ok (trimNul t) := by
  simp only [decryptWith, if_neg hc, ht]

theorem decryptWith_of_err (cfg : Config) {c : List Byte} {e : DecryptError}
    (hc : ¬ (c.length = 0 ∨ c.length % 16 ≠ 0)) (he : utf16leDecode (cbcDecrypt cfg.key cfg.iv c) = .err e) :
    decryptWith cfg c = .err e := by
  simp only [decryptWith, if_neg hc, he]

/-- Settles O57: past the length the outcome is that of Utf16leDecode, which never reports InvalidLength. -/
theorem decryptHasThreeOutcomes : Obligations.DecryptHasThreeOutcomes := by
  intro cfg c
  have hgood (hc : ¬ (c.length = 0 ∨ c.length % 16 ≠ 0)) :
      (decryptWith cfg c = .err .decodeError ∧ utf16leDecode (cbcDecrypt cfg.key cfg.iv c) = .err .decodeError) ∨
      (∃ t, decryptWith cfg c = .ok (trimNul t) ∧ utf16leDecode (cbcDecrypt cfg.key cfg.iv c) = .ok t) := by
    rcases utf16leDecode_cases (cbcDecrypt cfg.key cfg.iv c) with ⟨t, ht⟩ | herr
    · exact .inr ⟨t, decryptWith_of_ok cfg hc ht, ht⟩
    · exact .inl ⟨decryptWith_of_err cfg hc herr, herr⟩
  refine ⟨⟨fun h => ?_, decryptWith_of_badLength cfg⟩, hgood⟩
  by_contra hc
  rcases hgood hc with ⟨herr, -⟩ | ⟨t, hok, -⟩
  · cases herr.symm.trans h
  · cases hok.symm.trans h

end Sys2Proof.Machine
end

section
/-! The command line (rules R130 to R133): the lines of an argument, the bytes they stand for, and how the program
ends. -/

namespace Sys2Proof.Machine

/-! ### The lines of an argument -/

theorem toNat_eq_newline_iff (c : Char) : c.toNat = 0x0A ↔ c = Char.ofNat 0x0A :=
  Char.toNat_inj (d := Char.ofNat 0x0A)

/-- The lines are the library's parts between newlines (rule R131). -/
theorem splitLines_eq_splitOn (a : Text) : splitLines a = a.splitOn (Char.ofNat 0x0A) := by
  induction a with
  | nil => rfl
  | cons c a ih =>
    rw [splitLines, List.splitOn_cons_eq_if_modifyHead, ih]
    simp only [toNat_eq_newline_iff, beq_iff_eq]
    obtain ⟨l, ls, hls⟩ := List.exists_cons_of_ne_nil (List.splitOn_ne_nil (Char.ofNat 0x0A) a)
    rw [hls]
    rfl

/-- Lines without newline in them are the lines of the argument that they make up. -/
theorem splitLines_intercalate {ls : List Text} (hne : ls ≠ []) (hls : ∀ l ∈ ls, Char.ofNat 0x0A ∉ l) :
    splitLines ([Char.ofNat 0x0A].intercalate ls) = ls := by
  rw [splitLines_eq_splitOn, List.splitOn_intercalate _ hls hne]

theorem length_splitLines (a : Text) : (splitLines a).length = a.countP (fun c => c.toNat == 0x0A) + 1 := by
  induction a with
  | nil => rfl
  | cons c a ih =>
    rw [splitLines_eq_splitOn] at ih ⊢
    rw [List.splitOn_cons_eq_if_modifyHead, List.countP_cons]
    by_cases hc : c = Char.ofNat 0x0A
    · simp [hc, ih]
    · simp [hc, ih, toNat_eq_newline_iff]

/-- The characters of the lines are those of the argument but the newlines. -/
theorem flatten_splitLines (a : Text) : (splitLines a).flatten = a.filter (· != Char.ofNat 0x0A) := by
  induction a with
  | nil => rfl
  | cons c a ih =>
    rw [splitLines_eq_splitOn] at ih ⊢
    obtain ⟨l, ls, hls⟩ := List.exists_cons_of_ne_nil (List.splitOn_ne_nil (Char.ofNat 0x0A) a)
    rw [List.splitOn_cons_eq_if_modifyHead, List.filter_cons, ← ih, hls]
    by_cases hc : c = Char.ofNat 0x0A <;> simp [hc]

/-! ### The bytes of an argument -/

/-- What rule R131 asks of a line that stands for byte v. -/
def IsLineOf (l : Text) (v : Byte) : Prop := l ≠ [] ∧ (∀ c ∈ l, isDecimal c = true) ∧ decimalValue l = v.toNat

theorem parseLine_eq_some_iff (l : Text) (v : Byte) : parseLine l = some v ↔ IsLineOf l v := by
  have hform : (l.isEmpty || !l.all isDecimal) = true ↔ ¬ (l ≠ [] ∧ ∀ c ∈ l, isDecimal c = true) := by
    simp only [Bool.or_eq_true, Bool.not_eq_true', List.isEmpty_iff, ← Bool.not_eq_true, List.all_eq_true]
    tauto
  have hv := v.isLt
  rw [parseLine, IsLineOf, ← and_assoc]
  by_cases hline : l ≠ [] ∧ ∀ c ∈ l, isDecimal c = true
  · rw [if_neg (mt hform.mp (not_not.mpr hline)), and_iff_right hline]
    split_ifs with hbig
    · exact iff_of_false (by simp) (by omega)
    · rw [Option.some_inj, ← BitVec.toNat_inj, BitVec.toNat_ofNat, Nat.mod_eq_of_lt (by omega)]
  · rw [if_pos (hform.mpr hline)]
    exact iff_of_false (by simp) fun h => hline h.1

theorem parseLines_eq_some_iff (ls : List Text) (b : List Byte) :
    parseLines ls = some b ↔ List.Forall₂ IsLineOf ls b := by
  induction ls generalizing b with
  | nil => simp [parseLines, eq_comm]
  | cons l ls ih =>
    rw [parseLines, List.forall₂_cons_left_iff]
    simp only [← parseLine_eq_some_iff, ← ih]
    cases parseLine l with
    | none => simp
    | some v => simp [eq_comm]

theorem parseArg_eq_ok_iff (a : Text) (b : List Byte) :
    parseArg a = .ok b ↔ List.Forall₂ IsLineOf (splitLines a) b := by
  rw [← parseLines_eq_some_iff, parseArg]
  cases parseLines (splitLines a) <;> simp

/-- Every character of the lines is a digit. -/
theorem isDecimal_of_forall₂ {ls : List Text} {b : List Byte} (h : List.Forall₂ IsLineOf ls b) :
    ∀ l ∈ ls, ∀ c ∈ l, isDecimal c = true := by
  have hlines : List.Forall₂ (fun l v => (∀ c ∈ l, isDecimal c = true) ∧ IsLineOf l v) ls b :=
    h.imp fun _ _ ⟨hne, hdec, hvalue⟩ => ⟨hdec, hne, hdec, hvalue⟩
  exact ((List.forall₂_and_left ls b).mp hlines).1

/-- ParseArg has one way to fail (rule R131). -/
theorem parseArg_cases (a : Text) : (∃ b, parseArg a = .ok b) ∨ parseArg a = .err .parseError := by
  cases h : parseArg a with
  | ok b => exact .inl ⟨b, rfl⟩
  | err e => exact .inr rfl

/-- Settles O59: the lines are those of the library's `splitOn`, and each is parsed for itself. -/
theorem parseArgIsStrict : Obligations.ParseArgIsStrict := by
  refine ⟨parseArg_eq_ok_iff, fun a => ⟨length_splitLines a, ?_, fun l hl hmem => ?_⟩, fun a c hc hdec hnl => ?_⟩
  · rw [splitLines_eq_splitOn, List.intercalate_splitOn]
  · have hin : Char.ofNat 0x0A ∈ a.filter (· != Char.ofNat 0x0A) :=
      flatten_splitLines a ▸ List.mem_flatten_of_mem hl hmem
    simp at hin
  · refine (parseArg_cases a).resolve_left fun ⟨b, hb⟩ => ?_
    have hin : c ∈ (splitLines a).flatten := by
      rw [flatten_splitLines, List.mem_filter]
      exact ⟨hc, by simpa [toNat_eq_newline_iff] using hnl⟩
    obtain ⟨l, hl, hcl⟩ := List.mem_flatten.mp hin
    have hlines := isDecimal_of_forall₂ ((parseArg_eq_ok_iff a b).mp hb) l hl c hcl
    cases hlines.symm.trans hdec

/-! ### How the program ends -/

/-- Settles O60: each case of the rule is a branch of Main, and a message tells its error kind. -/
theorem programEndsAsTheRuleSays : Obligations.ProgramEndsAsTheRuleSays := by
  refine ⟨fun args hargs => ?_, fun a ha => ?_, fun a c hc => ⟨fun h => ?_, fun h => ?_, fun t h => ?_⟩,
    fun args k h => programMain_failure h, fun args args' k k' h h' heq => ?_⟩
  · match args, hargs with
    | [], _ => rfl
    | [_], hargs => exact absurd rfl hargs
    | _ :: _ :: _, _ => rfl
  · simp only [programEnd, ha]
  · simp only [programEnd, hc, h]
  · simp only [programEnd, hc, h]
  · have hend : programEnd [a] = .success t := by simp only [programEnd, hc, h]
    exact ⟨hend, by rw [hend]; rfl, programMain_success hend⟩
  · rw [programMain_failure h, programMain_failure h'] at heq
    exact (messageText_inj k k').mp heq

end Sys2Proof.Machine
end

section
/-! The round trip at the level of strings (rule R128), from a String to its ciphertext on the command line and back. -/

namespace Sys2Proof.Machine

/-! ### Padding -/

theorem length_padNul (b : List Byte) : (padNul b).length % 16 = 0 ∧ 0 < (padNul b).length := by
  rw [padNul, List.length_append, List.length_replicate]
  split_ifs <;> omega

theorem padNul_of_blocks {b : List Byte} (h0 : b.length ≠ 0) (hb : b.length % 16 = 0) : padNul b = b := by
  simp [padNul, h0, hb]

theorem utf16leEncode_append (t u : Text) : utf16leEncode (t ++ u) = utf16leEncode t ++ utf16leEncode u :=
  List.flatMap_append

theorem utf16leEncode_replicate_nul (n : Nat) : utf16leEncode (List.replicate n nul) = List.replicate (2 * n) 0#8 := by
  induction n with
  | zero => rfl
  | succ n ih =>
    rw [List.replicate_succ, ← List.singleton_append, utf16leEncode_append, ih, Nat.mul_succ, Nat.add_comm,
      List.replicate_add]
    rfl

/-- The padding of a text is the encoding of NULs (rules R9, R123). -/
theorem padNul_utf16leEncode (t : Text) :
    ∃ n, padNul (utf16leEncode t) = utf16leEncode (t ++ List.replicate n nul) := by
  have heven := length_utf16leEncode t
  have hpad :
      ∃ n, (if (utf16leEncode t).length = 0 then 16 else (16 - (utf16leEncode t).length % 16) % 16) = 2 * n := by
    split_ifs
    · exact ⟨8, rfl⟩
    · exact ⟨(16 - (utf16leEncode t).length % 16) % 16 / 2, by omega⟩
  obtain ⟨n, hn⟩ := hpad
  exact ⟨n, by rw [padNul, hn, utf16leEncode_append, utf16leEncode_replicate_nul]⟩

/-! ### Encryption and decryption -/

theorem length_cbcEncryptBlocks (k v : Block) (ps : List Block) : (cbcEncryptBlocks k v ps).length = ps.length := by
  induction ps generalizing v with
  | nil => rfl
  | cons p ps ih => rw [cbcEncryptBlocks, List.length_cons, ih, List.length_cons]

theorem length_cbcEncrypt (k v : Block) (p : List Byte) : (cbcEncrypt k v p).length = 16 * (p.length / 16) := by
  rw [cbcEncrypt, length_bytesOf, length_cbcEncryptBlocks, blocksOf, length_takeBlocks]

/-- For every KEY and IV the padded and encrypted text is decrypted to the text (rule R128). -/
theorem decryptWith_cbcEncrypt (cfg : Config) {t : Text} (ht : t.getLast? ≠ some nul) :
    decryptWith cfg (cbcEncrypt cfg.key cfg.iv (padNul (utf16leEncode t))) = .ok t := by
  obtain ⟨hwhole, hpos⟩ := length_padNul (utf16leEncode t)
  obtain ⟨n, hn⟩ := padNul_utf16leEncode t
  have hlen := length_cbcEncrypt cfg.key cfg.iv (padNul (utf16leEncode t))
  have hdecode : utf16leDecode (cbcDecrypt cfg.key cfg.iv (cbcEncrypt cfg.key cfg.iv (padNul (utf16leEncode t)))) =
      .ok (t ++ List.replicate n nul) := by
    rw [cbcRoundTrip _ _ _ hwhole, hn]
    exact (utf16leDecode_eq_ok_iff _ _).mpr rfl
  rw [decryptWith_of_ok cfg (by omega) hdecode, trimNul_append_replicate ht]

/-! ### The argument of the program -/

/-- A ciphertext as the argument of the program: its bytes in decimal, one on each line (rule R131). -/
def argumentOf (b : List Byte) : Text := [Char.ofNat 0x0A].intercalate (b.map fun v => Nat.toDigits 10 v.toNat)

theorem isDecimal_of_isDigit {c : Char} (h : c.isDigit = true) : isDecimal c = true := by
  simpa [isDecimal] using Char.isDigit_iff_toNat.mp h

theorem isLineOf_toDigits (v : Byte) : IsLineOf (Nat.toDigits 10 v.toNat) v := by
  refine ⟨Nat.toDigits_ne_nil, fun c hc => ?_, Nat.ofDigitChars_ten_toDigits⟩
  exact isDecimal_of_isDigit (Nat.isDigit_of_mem_toDigits (by decide) (by decide) hc)

theorem parseArg_argumentOf {b : List Byte} (hb : b ≠ []) : parseArg (argumentOf b) = .ok b := by
  have hlines : List.Forall₂ IsLineOf (b.map fun v => Nat.toDigits 10 v.toNat) b :=
    List.forall₂_map_left_iff.mpr (List.forall₂_same.mpr fun v _ => isLineOf_toDigits v)
  rw [parseArg_eq_ok_iff, argumentOf, splitLines_intercalate (by simpa using hb)]
  · exact hlines
  · intro l hl hnl
    cases isDecimal_of_forall₂ hlines l hl _ hnl

/-- The program undoes the encryption of a text, whatever the text (rules R128, R132). -/
theorem programEnd_argumentOf {t : Text} (ht : t.getLast? ≠ some nul) :
    programEnd [argumentOf (cbcEncrypt engineConfig.key engineConfig.iv (padNul (utf16leEncode t)))] = .success t := by
  obtain ⟨hwhole, hpos⟩ := length_padNul (utf16leEncode t)
  have hne : cbcEncrypt engineConfig.key engineConfig.iv (padNul (utf16leEncode t)) ≠ [] :=
    List.ne_nil_of_length_pos (by rw [length_cbcEncrypt]; omega)
  have hdecrypt : decrypt (cbcEncrypt engineConfig.key engineConfig.iv (padNul (utf16leEncode t))) = .ok t :=
    decryptWith_cbcEncrypt engineConfig ht
  simp only [programEnd, parseArg_argumentOf hne, hdecrypt]

/-- Settles O58; the scenario is the law for the text "Secret1". -/
theorem stringRoundTrip : Obligations.StringRoundTrip :=
  ⟨fun _ ht _ => decryptWith_cbcEncrypt engineConfig ht, fun _ => padNul_of_blocks, programEnd_argumentOf (by decide)⟩

end Sys2Proof.Machine
end

section
/-! The exception InvalidLength, the error state and the protocol violations (`60_exceptions.md` rules R141 to R147). -/

namespace Sys2Proof.Machine

/-! ### Protocol violations -/

/-- PERR is set by the listed causes alone: any other transaction but CLEAR leaves it as it is (rule R142). -/
theorem exec_perr_of_not_violates {i : Instr} {s t : State} (h : violates s i = false) (hi : i ≠ .clear)
    (ht : exec i s = .next t) : t.perr = s.perr := by
  cases i with
  | start =>
    rcases execStart_cases s t ht with ⟨hp, rfl⟩ | ⟨-, -, rfl⟩ | ⟨-, -, rfl⟩
    · exact absurd (of_decide_eq_false h) (not_not_intro hp)
    · rfl
    · rfl
  | setlen n =>
    rcases execSetlen_cases n s t ht with ⟨-, rfl⟩ | ⟨hp, rfl⟩
    · rfl
    · exact absurd (of_decide_eq_false h) (not_not_intro hp)
  | push b =>
    rcases execPush_cases b s t ht with ⟨-, rfl⟩ | ⟨hirdy, -⟩
    · rfl
    · simp [violates, hirdy] at h
  | pop =>
    rcases execPop_cases s t ht with ⟨-, rfl⟩ | ⟨hordy, -⟩
    · rfl
    · simp [violates, hordy] at h
  | clear => exact absurd rfl hi
  | ctrlrsvd _ | illegal _ _ => cases h
  | stat | getlen | geticnt | getocnt => cases ht; rfl

/-- Row 4 of rule R142 in its own words: IRDY = 0 outside RUN, with IBUF full, or with all of LEN accepted, since ICNT
never passes LEN in RUN (rule R27 item c). -/
theorem State.Inv.violates_push_iff {s : State} (h : s.Inv) (b : Byte) :
    violates s (.push b) = true ↔ s.phase ≠ .run ∨ s.ifill.val = 16 ∨ s.icnt = s.len := by
  have hnot : violates s (.push b) = true ↔ ¬ (s.phase = .run ∧ s.ifill.val < 16 ∧ s.icnt.toNat < s.len.toNat) := by
    rw [← irdy_iff, violates, Bool.not_eq_true', Bool.not_eq_true]
  by_cases hp : s.phase = .run
  · have hacc := ((inv_iff_of_run s hp).mp h).accepted
    have hfill := s.ifill.isLt
    simp only [hnot, hp, true_and, ne_eq, not_true_eq_false, false_or, ← BitVec.toNat_inj]
    omega
  · simp [hnot, hp]

/-- Settles O23: each violation takes the path that only sets PERR, and every other path leaves PERR alone. -/
theorem violationsSetPerrAndNothingElse : Obligations.ViolationsSetPerrAndNothingElse := by
  refine ⟨fun i s h => ⟨_, exec_of_violates h, rfl, fun hread => if_pos hread⟩, fun i s h hi => ?_,
    fun s => ⟨_, rfl, rfl⟩, fun s => rfl, engineTurn_perr engineConfig, fun b s h => h.violates_push_iff b⟩
  obtain ⟨t, ht⟩ := exec_next i s
  exact ⟨t, ht, exec_perr_of_not_violates h hi ht⟩

/-! ### InvalidLength -/

/-- The hypotheses of rule R141 hold together: START straight after reset is refused. -/
theorem witness_invalid_length_at_reset : State.reset.Inv ∧ State.reset.phase = .idle ∧ State.reset.len.toNat = 0 :=
  ⟨inv_reset, rfl, rfl⟩

/-- Settles O21: raising writes STATE and ERRCODE alone, and in IDLE all it leaves but PERR and LEN is blank. -/
theorem invalidLengthIsPrecise : Obligations.InvalidLengthIsPrecise := by
  intro s h hp hlen
  obtain ⟨hicnt, hocnt, hifill, horem, hprev, hibuf, hobuf⟩ := h.blank (.inl hp)
  refine ⟨_, exec_start_of_badLength s hp ((badLength_iff s.len).mpr hlen), ?_, rfl, rfl⟩
  simp [State.noAnswer, State.raiseInvalidLength, hicnt, hocnt, hifill, horem, hprev, hibuf, hobuf]

/-! ### The error state -/

/-- In ERR a transaction but CLEAR is a violation or a read without side effect: it changes PERR and the port alone, and
a POP answers 0 (rule R147). -/
theorem exec_of_err {i : Instr} {s t : State} (h : s.Inv) (hp : s.phase = .err) (hi : i ≠ .clear)
    (ht : exec i s = .next t) : ∃ p r, t = { s with perr := p, rdata := r } ∧ (i = .pop → r = some 0#32) := by
  obtain ⟨hirdy, hordy, -⟩ := h.quiet (by simp [hp])
  cases hv : violates s i with
  | true =>
    cases (exec_of_violates hv).symm.trans ht
    exact ⟨_, _, rfl, fun hpop => by rw [hpop]; rfl⟩
  | false =>
    cases i with
    | clear => exact absurd rfl hi
    | start | ctrlrsvd _ | setlen _ | push _ | pop | illegal _ _ => simp [violates, hp, hirdy, hordy] at hv
    | stat | getlen | geticnt | getocnt => cases ht; exact ⟨_, _, rfl, nofun⟩

/-- The same of every event: in ERR no block step is enabled, so ENGINE's turn holds the state (rule R146). -/
theorem perform_of_err {e : Event} {s : State} (h : s.Inv) (hp : s.phase = .err) (hreset : e ≠ .reset)
    (hclear : e.instr? ≠ some .clear) :
    (∃ p r, s.perform e = { s with perr := p, rdata := r, agenda := [] }) ∧ ∀ b ∈ e.popped s, b = 0x00#8 := by
  cases e with
  | reset => exact absurd rfl hreset
  | engine =>
    obtain ⟨-, -, hbusy⟩ := h.quiet (by simp [hp])
    exact ⟨⟨_, _, engineTurn_of_not_busy engineConfig { s with agenda := [] } hbusy⟩, nofun⟩
  | host tw =>
    obtain ⟨p, r, ht, hpop⟩ := exec_of_err (h.withAgenda []) hp (fun hi => hclear (congrArg some hi))
      (exec_eq_perform tw s)
    refine ⟨⟨p, r, ht⟩, ?_⟩
    rw [Event.popped, ht]
    split_ifs with hinstr
    · simp [hpop (Option.some.inj hinstr)]
    · exact nofun

/-- ERR is left by CLEAR and reset alone, however many events fall (rule R147). -/
theorem performAll_of_err {es : List Event} {s : State} (h : s.Inv) (hp : s.phase = .err)
    (hes : ∀ e ∈ es, e ≠ .reset ∧ e.instr? ≠ some .clear) :
    (∃ p r a, s.performAll es = { s with perr := p, rdata := r, agenda := a }) ∧
      ∀ b ∈ poppedBytes s es, b = 0x00#8 := by
  induction es generalizing s with
  | nil => exact ⟨⟨_, _, _, rfl⟩, nofun⟩
  | cons e es ih =>
    obtain ⟨⟨hreset, hclear⟩, hes⟩ := List.forall_mem_cons.mp hes
    obtain ⟨⟨p, r, hstep⟩, hpopped⟩ := perform_of_err h hp hreset hclear
    obtain ⟨hrun, hlater⟩ := ih (h.withPort p r []) hp hes
    rw [State.performAll, poppedBytes, hstep]
    exact ⟨hrun, List.forall_mem_append.mpr ⟨hpopped, hlater⟩⟩

/-- Settles O22: only PERR, the port and the events to come move in ERR, and BUSY reads none of them. -/
theorem errLeftOnlyByClearOrReset : Obligations.ErrLeftOnlyByClearOrReset := by
  intro s es h hp hes
  obtain ⟨⟨p, r, a, hrun⟩, hpopped⟩ := performAll_of_err h hp hes
  obtain ⟨-, -, hbusy⟩ := h.quiet (by simp [hp])
  rw [hrun]
  exact ⟨rfl, hbusy, hpopped⟩

end Sys2Proof.Machine
end

section
/-! The end of a run, the delay of the block step and the wait for it (`70_reset_and_hazards.md` rules R166, R169). -/

namespace Sys2Proof.Machine

/-! ### The end of a run -/

theorem engineTurn_phase (c : Config) (s : State) : (s.engineTurn c).phase = s.phase := by
  rcases engineTurn_cases c s with ⟨-, ht⟩ | ⟨-, ht⟩ <;> rw [ht]
  rfl

/-- ENGINE keeps STATE and reset makes it IDLE, so a step into any other STATE is a transaction. -/
theorem exists_exec_of_step_phase_ne {s t : State} (ht : step s = .next t) (hne : s.phase ≠ t.phase)
    (hidle : t.phase ≠ .idle) :
    ∃ tw rest, s.agenda = .host tw :: rest ∧ exec (decode tw) { s with agenda := rest } = .next t := by
  rcases step_cases s t ht with ⟨-, rfl⟩ | ⟨rest, -, rfl⟩ | ⟨rest, -, rfl⟩ | htx
  · exact absurd (engineTurn_phase engineConfig s).symm hne
  · exact absurd (engineTurn_phase engineConfig { s with agenda := rest }).symm hne
  · exact absurd rfl hidle
  · exact htx

/-- Every entry of the table of rule R71: CLEAR, the two ways of START out of IDLE, the POP of byte LEN - 1, and no
change anywhere else. -/
theorem stateTable_cases (s : State) (i : Instr) :
    stateTable s i = s.phase ∨ (i = .clear ∧ stateTable s i = .idle) ∨
    (i = .start ∧ s.phase = .idle ∧ badLength s.len = true ∧ stateTable s i = .err) ∨
    (i = .start ∧ s.phase = .idle ∧ badLength s.len = false ∧ stateTable s i = .run) ∨
    (i = .pop ∧ s.phase = .run ∧ s.ordy = true ∧ s.ocnt + 1#32 = s.len ∧ stateTable s i = .done) := by
  cases i with
  | start =>
    by_cases hp : s.phase = .idle
    · cases hb : badLength s.len <;> simp [stateTable, hp, hb]
    · exact .inl (stateTable_of_violates (i := .start) (decide_eq_true hp))
  | pop =>
    cases hp : s.phase with
    | run =>
      by_cases hlast : s.ordy = true ∧ s.ocnt + 1#32 = s.len
      · simp [stateTable, hp, hlast]
      · exact .inl (by simp [stateTable, hp, hlast])
    | idle | done | err => exact .inl (by simp [stateTable, hp])
  | clear => exact .inr (.inl ⟨rfl, rfl⟩)
  | ctrlrsvd _ | setlen _ | push _ | stat | getlen | geticnt | getocnt | illegal _ _ => exact .inl rfl

theorem pop_of_stateTable_eq_done {i : Instr} {s : State} (h : stateTable s i = .done) (hp : s.phase ≠ .done) :
    i = .pop ∧ s.phase = .run ∧ s.ocnt + 1#32 = s.len := by
  rcases stateTable_cases s i with hsame | ⟨-, hto⟩ | ⟨-, -, -, hto⟩ | ⟨-, -, -, hto⟩ | ⟨hi, hrun, -, hlast, -⟩
  · exact absurd (hsame.symm.trans h) hp
  · cases hto.symm.trans h
  · cases hto.symm.trans h
  · cases hto.symm.trans h
  · exact ⟨hi, hrun, hlast⟩

theorem start_of_stateTable_eq_err {i : Instr} {s : State} (h : stateTable s i = .err) (hp : s.phase ≠ .err) :
    i = .start ∧ s.phase = .idle ∧ badLength s.len = true := by
  rcases stateTable_cases s i with hsame | ⟨-, hto⟩ | ⟨hi, hidle, hbad, -⟩ | ⟨-, -, -, hto⟩ | ⟨-, -, -, -, hto⟩
  · exact absurd (hsame.symm.trans h) hp
  · cases hto.symm.trans h
  · exact ⟨hi, hidle, hbad⟩
  · cases hto.symm.trans h
  · cases hto.symm.trans h

/-- Settles O31: the table of STATE names the transaction, the invariants of the state entered give its counters. -/
theorem runEndsInDoneOrErr : Obligations.RunEndsInDoneOrErr := by
  intro s t h ht
  have hinv : t.Inv := everyStepKeepsTheInvariants s t h ht
  constructor
  · intro hdone hnot
    obtain ⟨tw, rest, hagenda, hexec⟩ := exists_exec_of_step_phase_ne ht (hdone ▸ hnot) (by simp [hdone])
    have htable := (exec_phase_eq_stateTable (h.withAgenda rest) hexec).symm.trans hdone
    obtain ⟨hpop, hrun, hlast⟩ := pop_of_stateTable_eq_done htable hnot
    have hcount := toNat_add_one_of_lt ((inv_iff_of_run s hrun).mp h).unfinished
    obtain ⟨-, -, hocnt, hicnt, -⟩ := (inv_iff_of_done t hdone).mp hinv
    exact ⟨⟨tw, rest, hagenda, hpop⟩, hrun, hcount.symm.trans (congrArg BitVec.toNat hlast), hocnt, hicnt⟩
  · intro herr hnot
    obtain ⟨tw, rest, hagenda, hexec⟩ := exists_exec_of_step_phase_ne ht (herr ▸ hnot) (by simp [herr])
    have htable := (exec_phase_eq_stateTable (h.withAgenda rest) hexec).symm.trans herr
    obtain ⟨hstart, hidle, hbad⟩ := start_of_stateTable_eq_err htable hnot
    have hblank := hinv.blank (.inr herr)
    exact ⟨⟨tw, rest, hagenda, hstart⟩, hidle, hbad, hblank.icnt, hblank.ocnt⟩

/-! ### The delay of the block step -/

/-- Settles O35, by induction on the events: in a busy state a transaction but CLEAR touches PERR and the port alone. -/
theorem busyLastsUntilTheBlockStep : Obligations.BusyLastsUntilTheBlockStep :=
  fun _ _ => busy_performAll

/-! ### The wait for the block step -/

section
variable {s : State} (rest : List HostOp) (reads : List Word)

/-- WAITO with a byte ready ends at the host's next turn: until then no turn of ENGINE takes ORDY away. -/
theorem waito_leadsTo_of_ordy (ho : s.ordy = true) :
    Script.LeadsTo ⟨.waitBit 3 :: rest, reads⟩ s fun p _ => p.ops = rest := by
  refine .of_host (fun r => r.ordy = true) ho (fun r hr => ?_) fun r hr => ?_
  · rw [perform_engine_of_ready r (.inr hr)]
    exact hr
  · rw [Script.turn_host_waito, hr]
    rfl

/-- Polls that see ORDY = 0 leave BUSY up, so ENGINE's turn finds the block step enabled and raises ORDY. -/
theorem waito_leadsTo_ordy_of_busy (hb : s.busy = true) :
    Script.LeadsTo ⟨.waitBit 3 :: rest, reads⟩ s fun p t => p.ops = .waitBit 3 :: rest ∧ t.ordy = true := by
  refine .of_turn .engine (by decide) (fun p r => p.ops = .waitBit 3 :: rest ∧ r.busy = true) ⟨rfl, hb⟩ ?_ ?_
  · rintro u ⟨ops, polls⟩ r hreset hnot ⟨rfl, hr⟩
    cases u with
    | host =>
      obtain ⟨-, hordy⟩ := flags_of_busy r hr
      rw [Script.turn_host_waito, hordy]
      exact ⟨rfl, hr⟩
    | engine => exact absurd rfl hnot
    | reset => exact absurd rfl hreset
  · rintro p r ⟨hops, hr⟩
    have hready : (r.perform .engine).ordy = true := by rw [perform_engine_of_busy hr]; rfl
    exact ⟨hops, hready⟩

end

/-- Settles O36: ENGINE's turn comes and raises ORDY, then the host's turn comes and sees it. -/
theorem waitoEndsUnderFairness : Obligations.WaitoEndsUnderFairness := by
  intro s sched hb hfair
  have hends : Script.LeadsTo ⟨Pseudo.waito.expand, []⟩ s fun p _ => p.ops = [] := by
    refine (waito_leadsTo_ordy_of_busy [] [] hb).trans ?_
    rintro ⟨ops, polls⟩ t ⟨rfl, ho⟩
    exact waito_leadsTo_of_ordy [] polls ho
  exact hends sched hfair

end Sys2Proof.Machine
end
